-- ==== Sys2Proof/Word.lean ====
section
/-! DEFINITION. The word types of the machine (spec 00_scope.md R5, R9) and the destination designator d. -/

namespace Sys2Proof

/-- An 8-bit value: W, every file register, every k of the general literal format (R5 `DATA_WIDTH`, `K8_WIDTH`). -/
abbrev Byte := BitVec 8

/-- A 14-bit instruction word (R5 `INSTR_WIDTH`, R90). -/
abbrev Word := BitVec 14

/-- A 13-bit program address: PC<12:0> and every return-stack entry (R5 `PC_WIDTH`, `STACK_WIDTH`). -/
abbrev ProgAddr := BitVec 13

/-- The 7-bit file-register field f, 0x00 to 0x7F (R5 `F_WIDTH`). -/
abbrev FileAddr := BitVec 7

/-- A 9-bit data address: bank and f (10_state.md R46, R47). -/
abbrev DataAddr := BitVec 9

/-- The 3-bit bit number b, 0 to 7 (R5 `B_WIDTH`). -/
abbrev BitNum := BitVec 3

/-- The 11-bit literal of CALL and GOTO (R5 `K11_WIDTH`). -/
abbrev PageAddr := BitVec 11

/-- The destination designator d: "d = 0: store result in W, d = 1: store result in file register f" (R15). -/
inductive Dest where
  | w
  | file
deriving DecidableEq, Repr

end Sys2Proof
end

