-- ==== Sys2Proof/Syntax.lean ====
section
/-! DEFINITION. The 35 instructions, one constructor per row of spec/opcode_table.json, in the table's order
(spec 30_encoding.md R99). Operand widths are in the types (R97): no value of an operand is illegal (60_exceptions.md R191). -/

namespace Sys2Proof

/-- The instructions of Table 15-2. `ret` is RETURN (the word is Lean's own). Don't-care bits are not operands (R110). -/
inductive Instr where
  | addwf (f : FileAddr) (d : Dest)
  | andwf (f : FileAddr) (d : Dest)
  | clrf (f : FileAddr)
  | clrw
  | comf (f : FileAddr) (d : Dest)
  | decf (f : FileAddr) (d : Dest)
  | decfsz (f : FileAddr) (d : Dest)
  | incf (f : FileAddr) (d : Dest)
  | incfsz (f : FileAddr) (d : Dest)
  | iorwf (f : FileAddr) (d : Dest)
  | movf (f : FileAddr) (d : Dest)
  | movwf (f : FileAddr)
  | nop
  | rlf (f : FileAddr) (d : Dest)
  | rrf (f : FileAddr) (d : Dest)
  | subwf (f : FileAddr) (d : Dest)
  | swapf (f : FileAddr) (d : Dest)
  | xorwf (f : FileAddr) (d : Dest)
  | bcf (f : FileAddr) (b : BitNum)
  | bsf (f : FileAddr) (b : BitNum)
  | btfsc (f : FileAddr) (b : BitNum)
  | btfss (f : FileAddr) (b : BitNum)
  | addlw (k : Byte)
  | andlw (k : Byte)
  | call (k : PageAddr)
  | clrwdt
  | goto (k : PageAddr)
  | iorlw (k : Byte)
  | movlw (k : Byte)
  | retfie
  | retlw (k : Byte)
  | ret
  | sleep
  | sublw (k : Byte)
  | xorlw (k : Byte)
deriving DecidableEq, Repr

end Sys2Proof
end

