-- ==== Sys2Proof/WellFormed.lean ====
section
/-! DEFINITION. Assembler statements and their operand ranges (spec 30_encoding.md R106 to R108). The operands of `Instr`
are in range by their types; an assembler statement holds plain numbers, and these checks are where a number out of range
is refused. -/

namespace Sys2Proof

/-- An assembler statement without its label: a mnemonic and its operands in the order of the Syntax line (R106). -/
structure AsmLine where
  mnemonic : String
  operands : List Nat
deriving DecidableEq, Repr

/-- The five operand forms of R106. -/
inductive OperandForm where
  /-- `f,d`, or `f` with d omitted (R107) -/
  | fileDest
  /-- `f` -/
  | file
  /-- `f,b` -/
  | fileBit
  /-- `k`, 0 to 255 -/
  | literal
  /-- `k`, 0 to 2047 -/
  | target
  /-- no operand -/
  | none
deriving DecidableEq, Repr

/-- The mnemonics of R99 with their operand forms (R106), in the order of Table 15-2. -/
def operandForms : List (String × OperandForm) :=
  [("ADDWF", .fileDest), ("ANDWF", .fileDest), ("CLRF", .file), ("CLRW", .none), ("COMF", .fileDest),
   ("DECF", .fileDest), ("DECFSZ", .fileDest), ("INCF", .fileDest), ("INCFSZ", .fileDest), ("IORWF", .fileDest),
   ("MOVF", .fileDest), ("MOVWF", .file), ("NOP", .none), ("RLF", .fileDest), ("RRF", .fileDest),
   ("SUBWF", .fileDest), ("SWAPF", .fileDest), ("XORWF", .fileDest)] ++
  [("BCF", .fileBit), ("BSF", .fileBit), ("BTFSC", .fileBit), ("BTFSS", .fileBit)] ++
  [("ADDLW", .literal), ("ANDLW", .literal), ("CALL", .target), ("CLRWDT", .none), ("GOTO", .target),
   ("IORLW", .literal), ("MOVLW", .literal), ("RETFIE", .none), ("RETLW", .literal), ("RETURN", .none),
   ("SLEEP", .none), ("SUBLW", .literal), ("XORLW", .literal)]

/-- The number and the ranges of the operands: `0 ≤ f ≤ 127`, `d ∈ [0,1]`, `0 ≤ b ≤ 7` (BTFSS too, 90_conflicts.md C4),
`0 ≤ k ≤ 255`, and `0 ≤ k ≤ 2047` for CALL and GOTO (R108). -/
def operandsInRange (form : OperandForm) (operands : List Nat) : Bool :=
  match form, operands with
  | .fileDest, [f, d] => decide (f ≤ 127) && decide (d ≤ 1)
  | .fileDest, [f] => decide (f ≤ 127)
  | .file, [f] => decide (f ≤ 127)
  | .fileBit, [f, b] => decide (f ≤ 127) && decide (b ≤ 7)
  | .literal, [k] => decide (k ≤ 255)
  | .target, [k] => decide (k ≤ 2047)
  | .none, [] => true
  | _, _ => false

/-- An assembler statement is well formed: its mnemonic is one of the 35 and its operands fit (R106, R108). -/
def AsmLine.wellFormed (line : AsmLine) : Bool :=
  match operandForms.lookup line.mnemonic with
  | some form => operandsInRange form line.operands
  | none => false

/-- d as an operand: 0 for W, 1 for the file register (R107). -/
def Dest.number : Dest → Nat
  | .w => 0
  | .file => 1

/-- The statement an instruction prints as: its mnemonic and its fields in the order of the Syntax line, as numbers (R110). -/
def Instr.toAsm : Instr → AsmLine
  | .addwf f d => ⟨"ADDWF", [f.toNat, d.number]⟩
  | .andwf f d => ⟨"ANDWF", [f.toNat, d.number]⟩
  | .clrf f => ⟨"CLRF", [f.toNat]⟩
  | .clrw => ⟨"CLRW", []⟩
  | .comf f d => ⟨"COMF", [f.toNat, d.number]⟩
  | .decf f d => ⟨"DECF", [f.toNat, d.number]⟩
  | .decfsz f d => ⟨"DECFSZ", [f.toNat, d.number]⟩
  | .incf f d => ⟨"INCF", [f.toNat, d.number]⟩
  | .incfsz f d => ⟨"INCFSZ", [f.toNat, d.number]⟩
  | .iorwf f d => ⟨"IORWF", [f.toNat, d.number]⟩
  | .movf f d => ⟨"MOVF", [f.toNat, d.number]⟩
  | .movwf f => ⟨"MOVWF", [f.toNat]⟩
  | .nop => ⟨"NOP", []⟩
  | .rlf f d => ⟨"RLF", [f.toNat, d.number]⟩
  | .rrf f d => ⟨"RRF", [f.toNat, d.number]⟩
  | .subwf f d => ⟨"SUBWF", [f.toNat, d.number]⟩
  | .swapf f d => ⟨"SWAPF", [f.toNat, d.number]⟩
  | .xorwf f d => ⟨"XORWF", [f.toNat, d.number]⟩
  | .bcf f b => ⟨"BCF", [f.toNat, b.toNat]⟩
  | .bsf f b => ⟨"BSF", [f.toNat, b.toNat]⟩
  | .btfsc f b => ⟨"BTFSC", [f.toNat, b.toNat]⟩
  | .btfss f b => ⟨"BTFSS", [f.toNat, b.toNat]⟩
  | .addlw k => ⟨"ADDLW", [k.toNat]⟩
  | .andlw k => ⟨"ANDLW", [k.toNat]⟩
  | .call k => ⟨"CALL", [k.toNat]⟩
  | .clrwdt => ⟨"CLRWDT", []⟩
  | .goto k => ⟨"GOTO", [k.toNat]⟩
  | .iorlw k => ⟨"IORLW", [k.toNat]⟩
  | .movlw k => ⟨"MOVLW", [k.toNat]⟩
  | .retfie => ⟨"RETFIE", []⟩
  | .retlw k => ⟨"RETLW", [k.toNat]⟩
  | .ret => ⟨"RETURN", []⟩
  | .sleep => ⟨"SLEEP", []⟩
  | .sublw k => ⟨"SUBLW", [k.toNat]⟩
  | .xorlw k => ⟨"XORLW", [k.toNat]⟩

/-- An instruction is well formed when the statement it prints as is (R108). Every instruction is: its operands' widths are in
their types. -/
def Instr.wellFormed (i : Instr) : Bool := i.toAsm.wellFormed

end Sys2Proof
end

