-- ==== Sys2Proof/Decode.lean ====
section
/-! DEFINITION. Field extraction, decoding by the 35 rows of the opcode map (spec 30_encoding.md R97 to R99), the same map by
opcode bits (R100, R101), the canonical encoding (R103), the assembler's and disassembler's view (R106 to R110), and the
host's entry `decodeTableWord`. -/

namespace Sys2Proof

/-- `f = ir[6:0]` (R97). -/
def fieldF (ir : Word) : FileAddr := ir.extractLsb' 0 7

/-- `d = ir[7]`: 0 is W, 1 is the file register (R97, R15). -/
def fieldD (ir : Word) : Dest := if ir.getLsbD 7 then .file else .w

/-- `b = ir[9:7]` (R97). -/
def fieldB (ir : Word) : BitNum := ir.extractLsb' 7 3

/-- `k8 = ir[7:0]` (R97). -/
def fieldK8 (ir : Word) : Byte := ir.extractLsb' 0 8

/-- `k11 = ir[10:0]` (R97). -/
def fieldK11 (ir : Word) : PageAddr := ir.extractLsb' 0 11

/-- A row of the opcode map (R99): the word matches when `ir & mask = value`; `build` reads the operand fields. -/
structure OpcodeRow where
  value : Word
  mask : Word
  build : Word → Instr

/-- The byte-oriented rows of R99, in the table's order. -/
def byteRows : List OpcodeRow :=
  [⟨0x0700, 0x3F00, fun ir => .addwf (fieldF ir) (fieldD ir)⟩,
   ⟨0x0500, 0x3F00, fun ir => .andwf (fieldF ir) (fieldD ir)⟩,
   ⟨0x0180, 0x3F80, fun ir => .clrf (fieldF ir)⟩,
   ⟨0x0100, 0x3F80, fun _ => .clrw⟩,
   ⟨0x0900, 0x3F00, fun ir => .comf (fieldF ir) (fieldD ir)⟩,
   ⟨0x0300, 0x3F00, fun ir => .decf (fieldF ir) (fieldD ir)⟩,
   ⟨0x0B00, 0x3F00, fun ir => .decfsz (fieldF ir) (fieldD ir)⟩,
   ⟨0x0A00, 0x3F00, fun ir => .incf (fieldF ir) (fieldD ir)⟩,
   ⟨0x0F00, 0x3F00, fun ir => .incfsz (fieldF ir) (fieldD ir)⟩,
   ⟨0x0400, 0x3F00, fun ir => .iorwf (fieldF ir) (fieldD ir)⟩,
   ⟨0x0800, 0x3F00, fun ir => .movf (fieldF ir) (fieldD ir)⟩,
   ⟨0x0080, 0x3F80, fun ir => .movwf (fieldF ir)⟩,
   ⟨0x0000, 0x3F9F, fun _ => .nop⟩,
   ⟨0x0D00, 0x3F00, fun ir => .rlf (fieldF ir) (fieldD ir)⟩,
   ⟨0x0C00, 0x3F00, fun ir => .rrf (fieldF ir) (fieldD ir)⟩,
   ⟨0x0200, 0x3F00, fun ir => .subwf (fieldF ir) (fieldD ir)⟩,
   ⟨0x0E00, 0x3F00, fun ir => .swapf (fieldF ir) (fieldD ir)⟩,
   ⟨0x0600, 0x3F00, fun ir => .xorwf (fieldF ir) (fieldD ir)⟩]

/-- The bit-oriented rows of R99. -/
def bitRows : List OpcodeRow :=
  [⟨0x1000, 0x3C00, fun ir => .bcf (fieldF ir) (fieldB ir)⟩,
   ⟨0x1400, 0x3C00, fun ir => .bsf (fieldF ir) (fieldB ir)⟩,
   ⟨0x1800, 0x3C00, fun ir => .btfsc (fieldF ir) (fieldB ir)⟩,
   ⟨0x1C00, 0x3C00, fun ir => .btfss (fieldF ir) (fieldB ir)⟩]

/-- The literal and control rows of R99. -/
def literalRows : List OpcodeRow :=
  [⟨0x3E00, 0x3E00, fun ir => .addlw (fieldK8 ir)⟩,
   ⟨0x3900, 0x3F00, fun ir => .andlw (fieldK8 ir)⟩,
   ⟨0x2000, 0x3800, fun ir => .call (fieldK11 ir)⟩,
   ⟨0x0064, 0x3FFF, fun _ => .clrwdt⟩,
   ⟨0x2800, 0x3800, fun ir => .goto (fieldK11 ir)⟩,
   ⟨0x3800, 0x3F00, fun ir => .iorlw (fieldK8 ir)⟩,
   ⟨0x3000, 0x3C00, fun ir => .movlw (fieldK8 ir)⟩,
   ⟨0x0009, 0x3FFF, fun _ => .retfie⟩,
   ⟨0x3400, 0x3C00, fun ir => .retlw (fieldK8 ir)⟩,
   ⟨0x0008, 0x3FFF, fun _ => .ret⟩,
   ⟨0x0063, 0x3FFF, fun _ => .sleep⟩,
   ⟨0x3C00, 0x3E00, fun ir => .sublw (fieldK8 ir)⟩,
   ⟨0x3A00, 0x3F00, fun ir => .xorlw (fieldK8 ir)⟩]

/-- The complete opcode map (R99). -/
def opcodeRows : List OpcodeRow := byteRows ++ bitRows ++ literalRows

/-- `ir & mask = match` (R98). -/
def OpcodeRow.accepts (row : OpcodeRow) (ir : Word) : Bool := (ir &&& row.mask) == row.value

/-- Decoding (R98): the instruction of the row the word satisfies, none for the 376 unassigned words (R104). -/
def decode (ir : Word) : Option Instr :=
  (opcodeRows.find? (fun row => row.accepts ir)).map (fun row => row.build ir)

/-- The no-operand group, `ir[13:7] = 0000000`, by `ir[6:0]` (R101). -/
def decodeNoOperand (ir : Word) : Option Instr :=
  match (ir.extractLsb' 0 7).toNat with
  | 0x00 | 0x20 | 0x40 | 0x60 => some .nop
  | 0x08 => some .ret
  | 0x09 => some .retfie
  | 0x63 => some .sleep
  | 0x64 => some .clrwdt
  | _ => none

/-- The byte-oriented group, `ir[13:12] = 00`, by `ir[11:8]` and `ir[7]` (R100). -/
def decodeByteGroup (ir : Word) : Option Instr :=
  match (ir.extractLsb' 8 4).toNat with
  | 0 => if ir.getLsbD 7 then some (.movwf (fieldF ir)) else decodeNoOperand ir
  | 1 => if ir.getLsbD 7 then some (.clrf (fieldF ir)) else some .clrw
  | 2 => some (.subwf (fieldF ir) (fieldD ir))
  | 3 => some (.decf (fieldF ir) (fieldD ir))
  | 4 => some (.iorwf (fieldF ir) (fieldD ir))
  | 5 => some (.andwf (fieldF ir) (fieldD ir))
  | 6 => some (.xorwf (fieldF ir) (fieldD ir))
  | 7 => some (.addwf (fieldF ir) (fieldD ir))
  | 8 => some (.movf (fieldF ir) (fieldD ir))
  | 9 => some (.comf (fieldF ir) (fieldD ir))
  | 10 => some (.incf (fieldF ir) (fieldD ir))
  | 11 => some (.decfsz (fieldF ir) (fieldD ir))
  | 12 => some (.rrf (fieldF ir) (fieldD ir))
  | 13 => some (.rlf (fieldF ir) (fieldD ir))
  | 14 => some (.swapf (fieldF ir) (fieldD ir))
  | _ => some (.incfsz (fieldF ir) (fieldD ir))

/-- The bit-oriented group, `ir[13:12] = 01`, by `ir[11:10]` (R100). -/
def decodeBitGroup (ir : Word) : Option Instr :=
  match (ir.extractLsb' 10 2).toNat with
  | 0 => some (.bcf (fieldF ir) (fieldB ir))
  | 1 => some (.bsf (fieldF ir) (fieldB ir))
  | 2 => some (.btfsc (fieldF ir) (fieldB ir))
  | _ => some (.btfss (fieldF ir) (fieldB ir))

/-- The literal group, `ir[13:12] = 11`, by `ir[11:8]` (R100). -/
def decodeLiteralGroup (ir : Word) : Option Instr :=
  match (ir.extractLsb' 8 4).toNat with
  | 0 | 1 | 2 | 3 => some (.movlw (fieldK8 ir))
  | 4 | 5 | 6 | 7 => some (.retlw (fieldK8 ir))
  | 8 => some (.iorlw (fieldK8 ir))
  | 9 => some (.andlw (fieldK8 ir))
  | 10 => some (.xorlw (fieldK8 ir))
  | 11 => none
  | 12 | 13 => some (.sublw (fieldK8 ir))
  | _ => some (.addlw (fieldK8 ir))

/-- The opcode map as a case split on opcode bits (R100): a second decoder, written from the other description of the same
map. The machine runs `decode`. -/
def decodeByBits (ir : Word) : Option Instr :=
  match (ir.extractLsb' 12 2).toNat with
  | 0 => decodeByteGroup ir
  | 1 => decodeBitGroup ir
  | 2 => if ir.getLsbD 11 then some (.goto (fieldK11 ir)) else some (.call (fieldK11 ir))
  | _ => decodeLiteralGroup ir

/-- What the decoder answers for an opcode-table word. The instruction is one 14-bit word, so `nbits` only says how many bits the
table gives it, and a number with a bit above bit 13 is no instruction word (R90). -/
def decodeTableWord (_nbits w : Nat) : Option Instr :=
  if w < 16384 then decode (BitVec.ofNat 14 w) else none

/-- d in bit 7. -/
def Dest.bit7 : Dest → Word
  | .w => 0x0000
  | .file => 0x0080

/-- Byte-oriented: `match | (d << 7) | f` (R103). -/
def encodeByte (value : Word) (f : FileAddr) (d : Dest) : Word := value ||| d.bit7 ||| f.setWidth 14

/-- CLRF and MOVWF: `match | f`, with bit 7 of the match fixed to 1 (R92, R103). -/
def encodeFile (value : Word) (f : FileAddr) : Word := value ||| f.setWidth 14

/-- Bit-oriented: `match | (b << 7) | f` (R103). -/
def encodeBit (value : Word) (f : FileAddr) (b : BitNum) : Word := value ||| (b.setWidth 14 <<< 7) ||| f.setWidth 14

/-- General literal: `match | k8` (R103). -/
def encodeLiteral (value : Word) (k : Byte) : Word := value ||| k.setWidth 14

/-- CALL and GOTO: `match | k11` (R103). -/
def encodeTarget (value : Word) (k : PageAddr) : Word := value ||| k.setWidth 14

/-- The canonical encoding: every x = 0 (R103). -/
def encode : Instr → Word
  | .addwf f d => encodeByte 0x0700 f d
  | .andwf f d => encodeByte 0x0500 f d
  | .clrf f => encodeFile 0x0180 f
  | .clrw => 0x0100
  | .comf f d => encodeByte 0x0900 f d
  | .decf f d => encodeByte 0x0300 f d
  | .decfsz f d => encodeByte 0x0B00 f d
  | .incf f d => encodeByte 0x0A00 f d
  | .incfsz f d => encodeByte 0x0F00 f d
  | .iorwf f d => encodeByte 0x0400 f d
  | .movf f d => encodeByte 0x0800 f d
  | .movwf f => encodeFile 0x0080 f
  | .nop => 0x0000
  | .rlf f d => encodeByte 0x0D00 f d
  | .rrf f d => encodeByte 0x0C00 f d
  | .subwf f d => encodeByte 0x0200 f d
  | .swapf f d => encodeByte 0x0E00 f d
  | .xorwf f d => encodeByte 0x0600 f d
  | .bcf f b => encodeBit 0x1000 f b
  | .bsf f b => encodeBit 0x1400 f b
  | .btfsc f b => encodeBit 0x1800 f b
  | .btfss f b => encodeBit 0x1C00 f b
  | .addlw k => encodeLiteral 0x3E00 k
  | .andlw k => encodeLiteral 0x3900 k
  | .call k => encodeTarget 0x2000 k
  | .clrwdt => 0x0064
  | .goto k => encodeTarget 0x2800 k
  | .iorlw k => encodeLiteral 0x3800 k
  | .movlw k => encodeLiteral 0x3000 k
  | .retfie => 0x0009
  | .retlw k => encodeLiteral 0x3400 k
  | .ret => 0x0008
  | .sleep => 0x0063
  | .sublw k => encodeLiteral 0x3C00 k
  | .xorlw k => encodeLiteral 0x3A00 k

/-- The don't-care positions of an instruction's word, as a mask of ones (R102): two words that decode to the instruction differ
in these bits only. -/
def dontCareMask : Instr → Word
  | .clrw => 0x007F
  | .nop => 0x0060
  | .movlw _ => 0x0300
  | .retlw _ => 0x0300
  | .addlw _ => 0x0100
  | .sublw _ => 0x0100
  | .addwf _ _ | .andwf _ _ | .clrf _ | .comf _ _ | .decf _ _ | .decfsz _ _ | .incf _ _ | .incfsz _ _ | .iorwf _ _ => 0x0000
  | .movf _ _ | .movwf _ | .rlf _ _ | .rrf _ _ | .subwf _ _ | .swapf _ _ | .xorwf _ _ => 0x0000
  | .bcf _ _ | .bsf _ _ | .btfsc _ _ | .btfss _ _ => 0x0000
  | .andlw _ | .call _ | .clrwdt | .goto _ | .iorlw _ | .retfie | .ret | .sleep | .xorlw _ => 0x0000

/-- An omitted d operand is 1, the file register (R107). -/
def destOperand (operand : Option Nat) : Dest := if operand.getD 1 = 0 then .w else .file

/-- The instruction with a mnemonic and operands, read without a check of their ranges (R106, R107). -/
def Instr.ofAsm (line : AsmLine) : Option Instr :=
  let f : FileAddr := BitVec.ofNat 7 (line.operands.getD 0 0)
  let d : Dest := destOperand line.operands[1]?
  let b : BitNum := BitVec.ofNat 3 (line.operands.getD 1 0)
  let k : Byte := BitVec.ofNat 8 (line.operands.getD 0 0)
  let t : PageAddr := BitVec.ofNat 11 (line.operands.getD 0 0)
  List.lookup line.mnemonic <|
    [("ADDWF", .addwf f d), ("ANDWF", .andwf f d), ("CLRF", .clrf f), ("CLRW", .clrw), ("COMF", .comf f d),
     ("DECF", .decf f d), ("DECFSZ", .decfsz f d), ("INCF", .incf f d), ("INCFSZ", .incfsz f d), ("IORWF", .iorwf f d),
     ("MOVF", .movf f d), ("MOVWF", .movwf f), ("NOP", .nop), ("RLF", .rlf f d), ("RRF", .rrf f d),
     ("SUBWF", .subwf f d), ("SWAPF", .swapf f d), ("XORWF", .xorwf f d)] ++
    [("BCF", .bcf f b), ("BSF", .bsf f b), ("BTFSC", .btfsc f b), ("BTFSS", .btfss f b)] ++
    [("ADDLW", .addlw k), ("ANDLW", .andlw k), ("CALL", .call t), ("CLRWDT", .clrwdt), ("GOTO", .goto t),
     ("IORLW", .iorlw k), ("MOVLW", .movlw k), ("RETFIE", .retfie), ("RETLW", .retlw k), ("RETURN", .ret),
     ("SLEEP", .sleep), ("SUBLW", .sublw k), ("XORLW", .xorlw k)]

/-- Assembling one statement: a well-formed statement gives its canonical word, any other gives none (R103, R106 to R108;
what the assembler does with a value out of range the spec does not say: DESIGN CHOICE, log 32). -/
def assemble (line : AsmLine) : Option Word :=
  if line.wellFormed then (Instr.ofAsm line).map encode else none

/-- Disassembling one word: the statement of the row it matches (R110). -/
def disassemble (ir : Word) : Option AsmLine := (decode ir).map Instr.toAsm

end Sys2Proof
end

