-- ==== Sys2Proof/Config.lean ====
section
/-! DEFINITION. What an implementation fixes (spec 00_scope.md R5) and the free values: the values the spec leaves open
after which the machine goes on (93_implementation_defined.md U6 to U8). -/

namespace Sys2Proof

/-- A free byte, one for each draw: the value of a read of TMR0 (U8), of pins no step input has given a level (U7), and of a
byte-wide register a later power-on reset leaves unknown (70_reset_and_hazards.md R220). No body: nothing can be proved of its value
(log 8, 13, 21). -/
opaque Config.freeByte : Nat → Byte

/-- A free bit, one for each draw: a status bit a later reset leaves unknown (R220, R221; log 21). -/
opaque Config.freeBit : Nat → Bool

/-- A free count, one for each draw: a timer or prescaler count a later reset leaves unknown (R220; log 21). -/
opaque Config.freeCount : Nat → Nat

/-- What the storage register at a data address holds before anything is written to it, in each power-on epoch: "a draw fixed
at the start of the run" (U6; 92_eei_decisions.md D21; log 7). -/
opaque Config.storageDraw : Nat → Nat → Byte

/-- What a program address nothing was loaded to reads as: an unassigned word, so that reaching it refuses, the choice
92_eei_decisions.md D2 offers. DESIGN CHOICE (log 1). -/
def Config.unloadedWord : Word := 0x3B00#14

/-- What a data address beyond the default RegMap's table selects in the RegMap in use (20_memory.md R63). -/
inductive ExtraReg where
  /-- plain storage (R64) -/
  | storage
  /-- an I/O register: reads give the pins, writes go to the data latch (R66 (a)) -/
  | io
deriving DecidableEq, Repr

/-- The parameters of 00_scope.md R5 that the machine takes as arguments. They are plain data of the state, and no step changes
them (what a RegMap argument of `stepOn` may do is log 35). The defaults are the spec's, from general knowledge of the family: PRESUMED (log 5). -/
structure Params where
  /-- `STACK_DEPTH` -/
  stackDepth : Nat := 8
  /-- `PROG_WORDS`, at most 8192; no step reads it, since `ProgMem` is total (D2) -/
  progWords : Fin 8193 := 8192
  /-- `RESET_VECTOR` -/
  resetVector : ProgAddr := 0x0000#13
  /-- `INT_VECTOR` -/
  intVector : ProgAddr := 0x0004#13
  /-- `WDT_ENABLED`: whether a Watchdog time-out can occur (60_exceptions.md R208) -/
  wdtEnabled : Bool := false
  /-- The registers `defaultRegMap` has beyond the table of 10_state.md R45, by data address; the spec's default has none.
  DESIGN CHOICE (log 12). A RegMap of any other kind is an argument of `execOn` and `stepOn` (log 34). -/
  extra : List (Nat × ExtraReg) := []
deriving DecidableEq, Repr

/-- The five parts, which share one instruction set (R1, R2). -/
inductive Part where
  | pic16f882
  | pic16f883
  | pic16f884
  | pic16f886
  | pic16f887
deriving DecidableEq, Repr

/-- The default of `PROG_WORDS` for each part (R5): PRESUMED, general knowledge in the spec (log 5). -/
def Part.progWords : Part → Fin 8193
  | .pic16f882 => 2048
  | .pic16f883 | .pic16f884 => 4096
  | .pic16f886 | .pic16f887 => 8192

/-- A part's parameters: the defaults, and the part's own size of program memory. -/
def Part.params (part : Part) : Params := { progWords := part.progWords }

end Sys2Proof
end

