-- ==== Sys2Proof/Machine/State.lean ====
section
/-! DEFINITION. The state of the machine (spec 10_state.md), the platform's step inputs (60_exceptions.md), the reasons a step
can stop (R192), and the machine right after power-on reset (70_reset_and_hazards.md R220). State is plain data. -/

namespace Sys2Proof.Machine

/-- The machine has no fault: no instruction, with any operands and in any state, raises an exception (60_exceptions.md R190,
R191; 92_eei_decisions.md D17). So the type has no constructor, nothing raises one, and that is neither safe nor unsafe
(log 31). -/
inductive Fault where
deriving DecidableEq, Repr

/-- The refusals: the closed list of 60_exceptions.md R192, and the host's `notModelled`. A refusal is a statement about the
spec, not about the chip (00_scope.md R14): the chip goes on, so every one of them is safe. -/
inductive Refusal where
  /-- Raised by exec for an instruction that has no meaning yet; no arm raises it now. Safe: the model stops. -/
  | notModelled (mnemonic : String)
  /-- Raised by the step when the fetched word is one of the 376 unassigned words (R104, D8). Safe: the model stops where the
  chip goes on. -/
  | reservedOpcode
  /-- Raised by a push on a full return stack: CALL and interrupt entry (R28, D7). Safe: the chip goes on. -/
  | stackOverflow
  /-- Raised by a pop of an empty return stack: RETURN, RETLW and RETFIE (R29, D7). Safe: the chip goes on. -/
  | stackUnderflow
  /-- Raised by a file access to a register the RegMap in use does not define (R45, R50, D3). Safe: the chip goes on. -/
  | unmodelledRegister
deriving DecidableEq, Repr

/-- What a data address selects (10_state.md R45 to R47, 20_memory.md R64, R66). -/
inductive FileReg where
  /-- INDF addressed through itself: reads 0x00, stores nothing (R47) -/
  | indf
  | tmr0
  | option
  /-- the low byte of the program counter (R49) -/
  | pcl
  | status
  | fsr
  | pclath
  | intcon
  /-- a plain storage register, by data address (R64) -/
  | storage (a : Nat)
  /-- an I/O register, by data address (R66 (a)) -/
  | port (a : Nat)
deriving DecidableEq, Repr

/-- The resets a step input can raise (70_reset_and_hazards.md R220, R221). A Watchdog reset is not here: it is the Watchdog
time-out of a running processor (60_exceptions.md R208). -/
inductive ResetKind where
  | powerOn
  | mclr
  | brownOut
deriving DecidableEq, Repr

/-- `WakeEvent` (60_exceptions.md R206). -/
inductive WakeEvent where
  | none
  | interrupt
  | watchdog
  | reset (kind : ResetKind)
deriving DecidableEq, Repr

/-- What the platform gives one step: the input `in` of R63, R196, R206, R208 and R221 (log 14). The default input is quiet. -/
structure StepInput where
  /-- a reset raised at this boundary (R221) -/
  reset : Option ResetKind := .none
  /-- a Watchdog time-out raised at this boundary (R208); ignored where the Watchdog Timer is not enabled -/
  watchdog : Bool := false
  /-- an event that ends Sleep mode by interrupt (R206, R207): the platform's own word, whatever INTCON holds (log 38) -/
  wake : Bool := false
  /-- some enabled peripheral flag is set (R195, R196) -/
  peripheral : Bool := false
  /-- the INTCON flags T0IF, INTF, RBIF (bits 2, 1, 0) the platform sets (R195) -/
  flags : BitVec 3 := 0#3
  /-- new levels on the pins of I/O registers, by data address (R43) -/
  pins : List Host.Cell := []
  /-- I/O registers at which the condition that a read ends has arisen (R44) -/
  conds : List Nat := []
  /-- timer counts and anything else outside the processor that a RegMap argument reads (R63); `defaultRegMap` reads none of it -/
  other : List Nat := []
deriving DecidableEq, Repr

/-- The state. INVENTORY.md gives each field's rule and reset value. -/
structure State where
  /-- the parameters of R5; no step changes them (under a RegMap argument: log 35) -/
  params : Params
  /-- program memory: the words loaded, by address (R60, D1) -/
  prog : List (Nat × Word)
  /-- the working register (R21) -/
  w : Byte
  /-- the program counter (R24) -/
  pc : ProgAddr
  /-- the return stack, newest first (R27, R28) -/
  stk : List ProgAddr
  /-- Carry bit (R30) -/
  c : Bool
  /-- Digit carry bit (R30) -/
  dc : Bool
  /-- Zero bit (R30) -/
  z : Bool
  /-- Time-out bit, active low (R35) -/
  nTO : Bool
  /-- Power-down bit, active low (R35) -/
  nPD : Bool
  /-- STATUS<7>, the bank bit of indirect addressing (R47) -/
  irp : Bool
  /-- STATUS<6:5> = RP1:RP0, the bank of direct addressing (R46) -/
  rp : BitVec 2
  /-- PCLATH (R38, R45) -/
  pclath : BitVec 5
  /-- INTCON<7>, Global Interrupt Enable (R39) -/
  gie : Bool
  /-- INTCON<6:0> = PEIE, T0IE, INTE, RBIE, T0IF, INTF, RBIF (R45) -/
  intcon : BitVec 7
  /-- FSR (R45, R47) -/
  fsr : Byte
  /-- OPTION_REG (R45) -/
  optionReg : Byte
  /-- the byte last written to TMR0; no rule reads it (R209) -/
  tmr0 : Byte
  /-- the Watchdog Timer's count (R40, which gives no width: a Nat without bound, DESIGN CHOICE, log 37) -/
  wdt : Nat
  /-- the count of the prescaler of the WDT (R40, which gives no width: a Nat without bound, DESIGN CHOICE, log 37) -/
  wdtps : Nat
  /-- the count of the Timer0 prescaler (R41; a Nat without bound where its general knowledge has 8 bits: DESIGN CHOICE, log 37) -/
  t0ps : Nat
  /-- whether the processor is in Sleep mode (R42) -/
  sleeping : Bool
  /-- general-purpose storage: the registers written so far, by data address (R64) -/
  ram : List Host.Cell
  /-- the data latches of I/O registers, by data address (R43) -/
  latch : List Host.Cell
  /-- the levels on the pins of I/O registers, by data address, as far as step inputs have given them (R43) -/
  pins : List Host.Cell
  /-- the I/O registers whose condition that a read ends is pending (R44) -/
  conds : List Nat
  /-- the step inputs the platform will give, oldest first; when there is none the input is quiet -/
  inputs : List StepInput
  /-- the MODEL's own: how many free values have been drawn (log 8) -/
  draws : Nat
  /-- the MODEL's own: which power-on the unknown storage contents belong to (log 7) -/
  epoch : Nat
deriving DecidableEq, Repr

/-- The machine right after power-on reset (R51, R220), with the default parameters, nothing loaded and no step input to come.
W, C, DC, Z, RBIF, FSR, TMR0 and the three counts are unknown in the spec and hold the value log 3 names. -/
def State.reset : State where
  params := Params.mk 8 8192 0x0000#13 0x0004#13 false []
  prog := []
  w := 0x00#8
  pc := 0x0000#13
  stk := []
  c := false
  dc := false
  z := false
  nTO := true
  nPD := true
  irp := false
  rp := 0#2
  pclath := 0#5
  gie := false
  intcon := 0#7
  fsr := 0x00#8
  optionReg := 0xFF#8
  tmr0 := 0x00#8
  wdt := 0
  wdtps := 0
  t0ps := 0
  sleeping := false
  ram := []
  latch := []
  pins := []
  conds := []
  inputs := []
  draws := 0
  epoch := 0

/-- `RegMap`, the OPEN parameter of 00_scope.md R5: the pair of functions of 20_memory.md R63, each over the whole state. It is an
argument of `execOn` and `stepOn`, and no part of the state (log 34). It is over the whole of `State`, so a RegMap argument may
change the program, the parameters and the queue of step inputs too: R63 lets it write any component of the state, while R5 and
D1 fix the program for a run, and the spec does not say which holds. That the model leaves such a RegMap possible is a DESIGN
CHOICE (log 35); the default RegMap changes none of the three. -/
structure RegMap where
  /-- `RegMap.read(σ, f, in)`: the value read and the state after the read, which may have a side effect (R44), or a refusal -/
  read : FileAddr → StepInput → State → Except Refusal (Byte × State)
  /-- `RegMap.write(σ, f, v)`: the state after the write, or a refusal. The Bool says whether the instruction lists C, DC or Z under
  Status Affected, which R48 asks of a write of STATUS (log 34). -/
  write : Bool → FileAddr → Byte → State → Except Refusal State

/-- The parameters of 00_scope.md R5 that are functions of the machine state and the step's input. They are arguments of `stepOn`, and
no part of the state (log 34). Both events are asked at the state with the step's input taken in (log 14). -/
structure Platform where
  /-- `RegMap` (R63) -/
  regMap : RegMap
  /-- `IntReq(σ, in)` (R196): whether some source requests an interrupt, without GIE -/
  intReq : StepInput → State → Bool
  /-- `WakeEvent(σ, in)` (R206): what ends Sleep mode at this step, if anything does. Its answer is followed as R206 says, also where
  it is `watchdog` and `WDT_ENABLED` is false, or a `reset` the step's input does not raise: DESIGN CHOICE (log 36). -/
  wakeEvent : StepInput → State → WakeEvent

end Sys2Proof.Machine
end

