-- ==== Sys2Proof/Machine/Ops.lean ====
section
/-! DEFINITION. The named operations over memory, registers, the return stack and the program counter (spec 10_state.md,
20_memory.md), interrupt entry and return (60_exceptions.md R198, R200), and resets (70_reset_and_hazards.md R220, R221). -/

namespace Sys2Proof.Machine

/-! ### Canonical lists of (address, value) pairs -/

/-- What is listed at an address. -/
def Memory.read? {α : Type} : List (Nat × α) → Nat → Option α
  | [], _ => none
  | e :: rest, a => if a = e.1 then some e.2 else Memory.read? rest a

/-- Listing a value at an address, in its place in the rising order. -/
def Memory.insert {α : Type} : List (Nat × α) → Nat → α → List (Nat × α)
  | [], a, v => [(a, v)]
  | e :: rest, a, v =>
    if a < e.1 then (a, v) :: e :: rest
    else if a = e.1 then (a, v) :: rest
    else e :: Memory.insert rest a v

/-- Listing nothing at an address. -/
def Memory.erase {α : Type} (m : List (Nat × α)) (a : Nat) : List (Nat × α) :=
  m.filter (fun e => decide (e.1 ≠ a))

/-- A write. `blank` is what an unlisted address reads as, where that is a fixed value: writing it removes the entry. -/
def Memory.write {α : Type} [DecidableEq α] (blank : Option α) (m : List (Nat × α)) (a : Nat) (v : α) : List (Nat × α) :=
  if blank = some v then Memory.erase m a else Memory.insert m a v

/-- The canonical form: addresses strictly rising, all below `limit`, and no entry equal to what an unlisted address reads as. -/
abbrev Memory.wf {α : Type} [DecidableEq α] (limit : Nat) (blank : Option α) (m : List (Nat × α)) : Prop :=
  m.Pairwise (fun e e' => e.1 < e'.1) ∧ ∀ e ∈ m, e.1 < limit ∧ blank ≠ some e.2

/-! ### Program memory -/

/-- `ProgRead(a)` (R12, R60): total on 13-bit addresses; an address nothing was loaded to holds `Config.unloadedWord` (log 1). -/
def progRead (s : State) (a : ProgAddr) : Word := (Memory.read? s.prog a.toNat).getD Config.unloadedWord

/-- The loader's act, not an instruction's: no instruction writes program memory (R60, R75; log 2). -/
def loadWord (s : State) (a : ProgAddr) (v : Word) : State :=
  { s with prog := Memory.write (some Config.unloadedWord) s.prog a.toNat v }

/-! ### Storage registers -/

/-- The value of a plain storage register (R64): the last value written, or, where nothing has been written since power-on, the
draw of U6 (log 7). -/
def storageRead (s : State) (a : Nat) : Byte := (Memory.read? s.ram a).getD (Config.storageDraw s.epoch a)

/-- A write of a plain storage register (R64). Every write is listed: what an unlisted register reads as is not a fixed value. -/
def storageWrite (s : State) (a : Nat) (v : Byte) : State := { s with ram := Memory.write none s.ram a v }

/-! ### The program counter and W -/

/-- Writing all 13 bits of the program counter. -/
def State.setPc (s : State) (a : ProgAddr) : State := { s with pc := a }

/-- `pc <- (pc + 1) mod 8192` (R24, R52 stage 4). -/
def State.advance (s : State) : State := s.setPc (s.pc + 1)

/-- `W <- v` (R21). -/
def State.setW (s : State) (v : Byte) : State := { s with w := v }

/-- The target of CALL and GOTO: `PCLATH[4:3] ++ k11` (R71, R163, R165). -/
def pageTarget (s : State) (k : PageAddr) : ProgAddr := s.pclath.extractLsb' 3 2 ++ k

/-! ### The return stack -/

/-- `Push(v)` (R28): a full stack refuses (D7). -/
def push (s : State) (v : ProgAddr) : Except Refusal State :=
  if s.stk.length < s.params.stackDepth then .ok { s with stk := v :: s.stk } else .error .stackOverflow

/-- `Pop()` (R29): an empty stack refuses (D7). -/
def pop (s : State) : Except Refusal (ProgAddr × State) :=
  match s.stk with
  | [] => .error .stackUnderflow
  | v :: rest => .ok (v, { s with stk := rest })

/-- `pc <- Pop()`, shared by the returns (R168 to R170). -/
def popPc (s : State) : Except Refusal State :=
  match pop s with
  | .error r => .error r
  | .ok (v, t) => .ok (t.setPc v)

/-! ### RegMap: which register a file address selects, its reads and its writes (R63) -/

/-- The 9-bit data address of f: RP1:RP0:f, or IRP:FSR through INDF, f = 0x00 (R46, R47). -/
def dataAddress (s : State) (f : FileAddr) : DataAddr :=
  if f = 0x00#7 then BitVec.ofBool s.irp ++ s.fsr else s.rp ++ f

/-- The register at a data address: the default RegMap's table (R45), and beyond it the registers the RegMap in use adds
(log 12). None where RegMap defines no register (R50, D3). Storage at 0x70 to 0x7F is one set of registers for all banks. -/
def selectReg (p : Params) (a : DataAddr) : Option FileReg :=
  let low := (a.extractLsb' 0 7).toNat
  let bank := (a.extractLsb' 7 2).toNat
  if low = 0x00 then some .indf
  else if low = 0x01 then some (if bank % 2 = 0 then .tmr0 else .option)
  else if low = 0x02 then some .pcl
  else if low = 0x03 then some .status
  else if low = 0x04 then some .fsr
  else if low = 0x0A then some .pclath
  else if low = 0x0B then some .intcon
  else if 0x70 ≤ low then some (.storage low)
  else if bank = 0 ∧ 0x20 ≤ low then some (.storage low)
  else match Memory.read? p.extra a.toNat with
    | some .storage => some (.storage a.toNat)
    | some .io => some (.port a.toNat)
    | none => none

/-- The register an instruction's f selects in a state (R63). -/
def fileReg (s : State) (f : FileAddr) : Option FileReg := selectReg s.params (dataAddress s f)

/-- STATUS as a byte: IRP, RP1, RP0, nTO, nPD, Z, DC, C (R45, R48). -/
def statusByte (s : State) : Byte :=
  BitVec.ofBool s.irp ++ s.rp ++ BitVec.ofBool s.nTO ++ BitVec.ofBool s.nPD ++ BitVec.ofBool s.z ++ BitVec.ofBool s.dc
    ++ BitVec.ofBool s.c

/-- INTCON as a byte: GIE and the seven bits below it (R39, R45). -/
def intconByte (s : State) : Byte := BitVec.ofBool s.gie ++ s.intcon

/-- PCLATH as a byte: bits 7:5 read as 0 (R45). -/
def pclathByte (s : State) : Byte := s.pclath.setWidth 8

/-- PCL as a byte, read during the instruction at pc: `(pc + 1)[7:0]` (R26, R49, D6). -/
def pclByte (s : State) : Byte := (s.pc + 1).extractLsb' 0 8

/-- The value a read of a register returns. TMR0 is a draw (R209, U8); an I/O register gives the pins, a draw where no step
input has given their level (R66 (a), U7); INDF through itself reads 0x00 (R47). -/
def readValue (r : FileReg) (s : State) : Byte :=
  match r with
  | .indf => 0x00#8
  | .tmr0 => Config.freeByte s.draws
  | .option => s.optionReg
  | .pcl => pclByte s
  | .status => statusByte s
  | .fsr => s.fsr
  | .pclath => pclathByte s
  | .intcon => intconByte s
  | .storage a => storageRead s a
  | .port a => (Memory.read? s.pins a).getD (Config.freeByte s.draws)

/-- The state after a read of a register: a read of an I/O register ends its condition (R44, R225); the registers of the
default RegMap have no read side effect (U9). A value drawn uses up one draw. -/
def afterRead (r : FileReg) (s : State) : State :=
  match r with
  | .tmr0 => { s with draws := s.draws + 1 }
  | .port a =>
    { s with
      conds := s.conds.filter (fun x => decide (x ≠ a))
      draws := if (Memory.read? s.pins a).isNone then s.draws + 1 else s.draws }
  | _ => s

/-- A write of STATUS: bits 7:5 take the result's bits, bits 4:3 never change, and bits 2:0 take the result's unless the
instruction lists C, DC or Z under Status Affected (`masked`), whose own status rules then give them (R48). -/
def writeStatus (masked : Bool) (v : Byte) (s : State) : State :=
  { s with
    irp := v.getLsbD 7
    rp := v.extractLsb' 5 2
    z := if masked then s.z else v.getLsbD 2
    dc := if masked then s.dc else v.getLsbD 1
    c := if masked then s.c else v.getLsbD 0 }

/-- A write of TMR0: the prescaler is cleared if it is assigned to the Timer0 module, that is if PSA, OPTION_REG<3>, is 0 (R41,
R66 (b), D13; log 9, 10). -/
def writeTmr0 (v : Byte) (s : State) : State :=
  { s with tmr0 := v, t0ps := if s.optionReg.getLsbD 3 then s.t0ps else 0 }

/-- The state after a write of a register (R45 to R49, R66). A write of PCL makes PCLATH ++ v the address of the next
instruction, with no further increment (R26, R49). -/
def writeReg (masked : Bool) (r : FileReg) (v : Byte) (s : State) : State :=
  match r with
  | .indf => s
  | .tmr0 => writeTmr0 v s
  | .option => { s with optionReg := v }
  | .pcl => s.setPc (s.pclath ++ v)
  | .status => writeStatus masked v s
  | .fsr => { s with fsr := v }
  | .pclath => { s with pclath := v.setWidth 5 }
  | .intcon => { s with gie := v.getLsbD 7, intcon := v.setWidth 7 }
  | .storage a => storageWrite s a v
  | .port a => { s with latch := Memory.write none s.latch a v }

/-- `MemRead(f, 1)` (R11, R63): the value and the state after the read, or a refusal. -/
def readFile (f : FileAddr) (s : State) : Except Refusal (Byte × State) :=
  match fileReg s f with
  | none => .error .unmodelledRegister
  | some r => .ok (readValue r s, afterRead r s)

/-- `MemWrite(f, 1, v)` (R11, R63): the state after the write, or a refusal. `masked` says whether the instruction lists C, DC
or Z under Status Affected (R48). -/
def writeFile (masked : Bool) (f : FileAddr) (v : Byte) (s : State) : Except Refusal State :=
  match fileReg s f with
  | none => .error .unmodelledRegister
  | some r => .ok (writeReg masked r v s)

/-- The default RegMap (R45 to R50), with the registers `Params.extra` adds: the RegMap of `exec` and `step`. What it reads of the
platform is in the state already: the pins a step input gave (R43). -/
def defaultRegMap : RegMap where
  read f _ s := readFile f s
  write masked f v s := writeFile masked f v s

/-! ### Watchdog, interrupt entry and return -/

/-- `WDT <- 0; WDTPS <- 0`, shared by CLRWDT and SLEEP (R40, R164, R171). -/
def clearWatchdog (s : State) : State := { s with wdt := 0, wdtps := 0 }

/-- Interrupt entry (R198): `Push(pc); GIE <- 0; pc <- INT_VECTOR`, and nothing else. -/
def takeInterrupt (s : State) : Except Refusal State :=
  match push s s.pc with
  | .error r => .error r
  | .ok t => .ok { t with gie := false, pc := s.params.intVector }

/-- Return from interrupt (R168, R200): `pc <- Pop(); GIE <- 1`, and nothing else. -/
def returnFromInterrupt (s : State) : Except Refusal State :=
  match popPc s with
  | .error r => .error r
  | .ok t => .ok { t with gie := true }

/-- The default `IntReq` (R196), without GIE: T0IE and T0IF, INTE and INTF, RBIE and RBIF, or PEIE and some enabled peripheral flag.
PRESUMED, the family's formula (log 15). -/
def intReq (inp : StepInput) (s : State) : Bool :=
  (s.intcon.getLsbD 5 && s.intcon.getLsbD 2) || (s.intcon.getLsbD 4 && s.intcon.getLsbD 1)
    || (s.intcon.getLsbD 3 && s.intcon.getLsbD 0) || (s.intcon.getLsbD 6 && inp.peripheral)

/-! ### Resets -/

/-- What every reset does (R220, R221): pc, the stack, Sleep mode, GIE, PCLATH, the bank bits, OPTION_REG and INTCON<6:1> take
their reset values; INTCON<0>, TMR0 and the three counts are unknown, hence free values. nTO, nPD, W, C, DC, Z, FSR and
storage are the caller's. Of what stands outside R51's table the spec says nothing: that a reset ends no pending read-ended
condition (`conds`, R44) and leaves the data latches and the pin levels (R43) as they are is a DESIGN CHOICE (log 33). -/
def resetCommon (s : State) : State :=
  { s with
    pc := s.params.resetVector
    stk := []
    sleeping := false
    gie := false
    pclath := 0#5
    irp := false
    rp := 0#2
    optionReg := 0xFF#8
    intcon := 0#6 ++ BitVec.ofBool (Config.freeBit s.draws)
    tmr0 := Config.freeByte s.draws
    wdt := Config.freeCount s.draws
    wdtps := Config.freeCount (s.draws + 1)
    t0ps := Config.freeCount (s.draws + 2)
    draws := s.draws + 4 }

/-- A power-on reset after the start of the run (R220): W, C, DC, Z, FSR and storage are unknown too, hence free values;
nTO = nPD = 1. That it empties the data latches, and yet keeps the pending read-ended conditions (`conds`, R44) and the pin
levels as every reset does, is a DESIGN CHOICE: R51, R220 and R221 name none of the three (log 33). -/
def resetPowerOn (s : State) : State :=
  { resetCommon s with
    nTO := true
    nPD := true
    w := Config.freeByte (s.draws + 1)
    fsr := Config.freeByte (s.draws + 2)
    c := Config.freeBit (s.draws + 1)
    dc := Config.freeBit (s.draws + 2)
    z := Config.freeBit (s.draws + 3)
    ram := []
    latch := []
    epoch := s.epoch + 1 }

/-- An external reset on the MCLR pin (R221): nTO and nPD unchanged while running, 1 and 0 while sleeping; W, C, DC, Z, FSR and
storage unchanged. -/
def resetMclr (s : State) : State :=
  { resetCommon s with
    nTO := if s.sleeping then true else s.nTO
    nPD := if s.sleeping then false else s.nPD }

/-- A brown-out reset (R221, which lists no nTO, nPD for it: R220's 1 and 1, DEDUCED, log 21); W, C, DC, Z, FSR and storage
unchanged. -/
def resetBrownOut (s : State) : State := { resetCommon s with nTO := true, nPD := true }

/-- A Watchdog time-out of a running processor: nTO <- 0 and a reset (R208), with nTO, nPD = 0, 1 (R221). -/
def resetWatchdog (s : State) : State := { resetCommon s with nTO := false, nPD := true }

/-- A reset raised by a step input (R221). -/
def applyReset (kind : ResetKind) (s : State) : State :=
  match kind with
  | .powerOn => resetPowerOn s
  | .mclr => resetMclr s
  | .brownOut => resetBrownOut s

/-! ### Outcomes -/

/-- A refusal ends the run; a state is the next state. -/
def finish (r : Except Refusal State) : Host.Outcome State Fault Refusal :=
  match r with
  | .error reason => .refused reason
  | .ok s => .next s

end Sys2Proof.Machine
end

