-- ==== Sys2Proof/Machine/Boundary.lean ====
section
/-! DEFINITION. What happens at an instruction boundary before an instruction runs: the step's input, resets, Watchdog
time-outs, Sleep mode, interrupts (spec 60_exceptions.md R196 to R208, 70_reset_and_hazards.md R221), and the fetch (R52). -/

namespace Sys2Proof.Machine

/-- What an instruction boundary comes to: the step is this outcome and no instruction runs, or the instruction at pc of this
state runs. -/
inductive Boundary where
  | done (o : Host.Outcome State Fault Refusal)
  | run (s : State)

/-- The input of this step: the oldest of the queue, quiet when there is none (log 14). -/
def currentInput (s : State) : StepInput := s.inputs.headD {}

/-- Adding an address to a list without repeats. -/
def addCond (conds : List Nat) (a : Nat) : List Nat := if a ∈ conds then conds else a :: conds

/-- The state with this step's input taken in: the flags the platform sets in INTCON (R195), the pin levels (R43), the
conditions that have arisen (R44); the input leaves the queue. -/
def takeInput (s : State) : State :=
  { s with
    intcon := s.intcon ||| (currentInput s).flags.setWidth 7
    pins := (currentInput s).pins.foldl (fun m e => Memory.write none m e.1 e.2) s.pins
    conds := (currentInput s).conds.foldl addCond s.conds
    inputs := s.inputs.tail }

/-- Whether a Watchdog time-out happens at this boundary: only where the Watchdog Timer is enabled (R208, D12). -/
def watchdogTimeOut (inp : StepInput) (s : State) : Bool := inp.watchdog && s.params.wdtEnabled

/-- The default `WakeEvent` (R206): what the step's input raises, in the order reset, Watchdog time-out, interrupt (R197, D19).
The interrupt event is the input's field `wake` alone, which is not tied to the enable and flag bits of INTCON as R207 (3) ties the
family's: DESIGN CHOICE (log 38). -/
def wakeEvent (inp : StepInput) (s : State) : WakeEvent :=
  match inp.reset with
  | some kind => .reset kind
  | none => if watchdogTimeOut inp s then .watchdog else if inp.wake then .interrupt else .none

/-- The platform of `exec` and `step`: the default RegMap, the family's IntReq (log 15), and the wake-up events the step's input
raises (log 19). -/
def defaultPlatform : Platform where
  regMap := defaultRegMap
  intReq := intReq
  wakeEvent := wakeEvent

/-- The platform of the minimal model: its launch premises IntReq = false and WakeEvent = none (R196, R206; D10, D11), with the
default RegMap. -/
def minimalPlatform : Platform where
  regMap := defaultRegMap
  intReq _ _ := false
  wakeEvent _ _ := .none

/-- What follows at a boundary of an awake processor once resets and Watchdog time-outs are dealt with: an interrupt if GIE = 1
and the platform's IntReq, else the instruction (R197, R198). -/
def interruptOrRun (p : Platform) (inp : StepInput) (s : State) : Boundary :=
  if s.gie && p.intReq inp s then .done (finish (takeInterrupt s)) else .run s

/-- The boundary while sleeping (R206): no instruction and no interrupt entry unless an event ends Sleep mode. After an interrupt
event the instruction at pc runs, with interrupt entry suppressed for that step; after a Watchdog time-out it is not
suppressed (DEDUCED, log 19). The platform's WakeEvent is followed whatever it answers: `watchdog` wakes the processor with
nTO <- 0 also where WDT_ENABLED is false, R206 being taken over R208's 'no time-out ever occurs' (DESIGN CHOICE, log 36). The
default WakeEvent never answers so. -/
def sleepingBoundary (p : Platform) (inp : StepInput) (s : State) : Boundary :=
  match p.wakeEvent inp s with
  | .none => .done (.next s)
  | .interrupt => .run { s with sleeping := false }
  | .watchdog => interruptOrRun p inp { s with sleeping := false, nTO := false }
  | .reset kind => .done (.next (applyReset kind s))

/-- The boundary while running: a reset before everything, then a Watchdog time-out, then an interrupt if GIE = 1 and IntReq,
then the instruction (R197, R198, R208, D19). -/
def runningBoundary (p : Platform) (inp : StepInput) (s : State) : Boundary :=
  match inp.reset with
  | some kind => .done (.next (applyReset kind s))
  | none =>
    if watchdogTimeOut inp s then .done (.next (resetWatchdog s))
    else interruptOrRun p inp s

/-- The boundary of a state under a platform: its input is taken in, then the events are looked at. -/
def boundaryOn (p : Platform) (s : State) : Boundary :=
  if s.sleeping then sleepingBoundary p (currentInput s) (takeInput s)
  else runningBoundary p (currentInput s) (takeInput s)

/-- The boundary of a state under the default platform. -/
def atBoundary (s : State) : Boundary := boundaryOn defaultPlatform s

/-- Fetch and decode at pc (R52 stages 1 and 2): an unassigned word refuses (R98, R104). -/
def fetch (s : State) : Except Refusal Instr :=
  match decode (progRead s s.pc) with
  | some i => .ok i
  | none => .error .reservedOpcode

/-- A step, for any platform's events and any way of running an instruction on the step's input: what the boundary comes to, or
else the instruction fetched at pc (R52, R198, R206). -/
def stepWith (p : Platform) (run : StepInput → Instr → State → Host.Outcome State Fault Refusal) (s : State) :
    Host.Outcome State Fault Refusal :=
  match boundaryOn p s with
  | .done o => o
  | .run t =>
    match fetch t with
    | .error r => .refused r
    | .ok i => run (currentInput s) i t

end Sys2Proof.Machine
end

