-- ==== Sys2Proof/Machine/Flags.lean ====
section
/-! DEFINITION. The status bits an operation computes (spec 10_state.md R30 to R36) and the 8-bit operations of the
instruction set with theirs (40_byte_oriented.md R139). -/

namespace Sys2Proof.Machine

/-- The status bits among C, DC and Z an instruction writes, each with its new value; none for a bit it does not list under
Status Affected (R36). -/
structure FlagWrite where
  c : Option Bool := none
  dc : Option Bool := none
  z : Option Bool := none
deriving DecidableEq, Repr

/-- Whether any of C, DC, Z is listed: then a write of STATUS leaves bits 2:0 to the status rules (R48). -/
def FlagWrite.listsAny (fw : FlagWrite) : Bool := fw.c.isSome || fw.dc.isSome || fw.z.isSome

/-- Writing the listed status bits and no others (R30). -/
def State.setFlags (s : State) (fw : FlagWrite) : State :=
  { s with c := fw.c.getD s.c, dc := fw.dc.getD s.dc, z := fw.z.getD s.z }

/-- The result of an operation and the status bits it writes. -/
structure AluOut where
  value : Byte
  flags : FlagWrite
deriving DecidableEq, Repr

/-- Bits 3:0, the low digit. -/
def lowDigit (v : Byte) : BitVec 4 := v.extractLsb' 0 4

/-- Bits 7:4, the high digit. -/
def highDigit (v : Byte) : BitVec 4 := v.extractLsb' 4 4

/-- Z: 1 exactly when the 8-bit result is 0x00 (R34). -/
def zeroFlag (r : Byte) : Bool := decide (r = 0x00#8)

/-- C on addition: the carry out of bit 7 (R31). PRESUMED (log 25). -/
def carryAdd (a b : Byte) : Bool := decide (256 ≤ a.toNat + b.toNat)

/-- DC on addition: the carry out of bit 3 (R33). PRESUMED (log 25). -/
def digitCarryAdd (a b : Byte) : Bool := decide (16 ≤ (lowDigit a).toNat + (lowDigit b).toNat)

/-- C on subtraction of `sub` from `m`: 1 when `sub ≤ m` unsigned, no borrow (R32). -/
def carrySub (m sub : Byte) : Bool := decide (sub.toNat ≤ m.toNat)

/-- DC on subtraction: 1 when the low digit of `sub` is at most that of `m` (R32). -/
def digitCarrySub (m sub : Byte) : Bool := decide ((lowDigit sub).toNat ≤ (lowDigit m).toNat)

/-- Addition: C, DC, Z (R121, R161). -/
def aluAdd (a b : Byte) : AluOut :=
  { value := a + b, flags := { c := some (carryAdd a b), dc := some (digitCarryAdd a b), z := some (zeroFlag (a + b)) } }

/-- Subtraction `m - sub` by the two's-complement method: C, DC, Z (R136, R172). -/
def aluSub (m sub : Byte) : AluOut :=
  { value := m - sub,
    flags := { c := some (carrySub m sub), dc := some (digitCarrySub m sub), z := some (zeroFlag (m - sub)) } }

/-- An operation that writes Z only (R36, second row). -/
def aluZ (r : Byte) : AluOut := { value := r, flags := { z := some (zeroFlag r) } }

/-- An operation that writes no status bit (R36, last row). -/
def aluPlain (r : Byte) : AluOut := { value := r, flags := {} }

/-- Rotate left through Carry: `v[6:0] ++ C`, C <- v[7] (R134). -/
def aluRlf (c : Bool) (v : Byte) : AluOut :=
  { value := v.extractLsb' 0 7 ++ BitVec.ofBool c, flags := { c := some (v.getLsbD 7) } }

/-- Rotate right through Carry: `C ++ v[7:1]`, C <- v[0] (R135). -/
def aluRrf (c : Bool) (v : Byte) : AluOut :=
  { value := BitVec.ofBool c ++ v.extractLsb' 1 7, flags := { c := some (v.getLsbD 0) } }

/-- Nibble swap: `v[3:0] ++ v[7:4]` (R137). -/
def swapDigits (v : Byte) : Byte := lowDigit v ++ highDigit v

/-- The 8-bit word with bit b alone set: `1 << b` (R151, R152). -/
def bitMask (b : BitNum) : Byte := 0x01#8 <<< b.toNat

end Sys2Proof.Machine
end

