-- ==== Sys2Proof/Machine/Operands.lean ====
section
/-! DEFINITION. The operand forms (spec 20_memory.md R77) and what the instructions that share one have in common: the
read-modify-write of a file register (R65, R120, R150), the literal form (R160), the skip (R25). -/

namespace Sys2Proof.Machine

/-- `Dest(d, f, v)` (R11): W when d = 0, file register f, through RegMap, when d = 1. -/
def writeDest (m : RegMap) (masked : Bool) (d : Dest) (f : FileAddr) (v : Byte) (s : State) : Except Refusal State :=
  match d with
  | .w => .ok (s.setW v)
  | .file => m.write masked f v s

/-- The instructions that name f (R65, R120), for any RegMap and step input: one read of f; the operation on W, C and the value
read, in the state after the read; the listed status bits; then the result to the destination. pc moves on before the write, so
that a write of PCL is the last assignment of pc (R26). -/
def fileOp (m : RegMap) (inp : StepInput) (op : Byte → Bool → Byte → AluOut) (f : FileAddr) (d : Dest) (s : State) :
    Except Refusal State :=
  match m.read f inp s with
  | .error r => .error r
  | .ok (v, t) =>
    writeDest m (op t.w t.c v).flags.listsAny d f (op t.w t.c v).value ((t.setFlags (op t.w t.c v).flags).advance)

/-- CLRF's order (R123): the read, its value unused; the write of 0x00; and last `Z <- 1`, so that Z ends 1 whatever the write does to
it. The other instructions that list a status bit write it before the result (`fileOp`). -/
def clearOp (m : RegMap) (inp : StepInput) (f : FileAddr) (s : State) : Except Refusal State :=
  match m.read f inp s with
  | .error r => .error r
  | .ok (_, t) =>
    match m.write true f 0x00#8 t.advance with
    | .error r => .error r
    | .ok u => .ok (u.setFlags { z := some true })

/-- `if cond then Skip()` (R25): pc <- pc + 2, pc being the address of the instruction (R13), as the last assignment of pc. -/
def skipIf (cond : Bool) (at_ : ProgAddr) (s : State) : State := if cond then s.setPc (at_ + 2) else s

/-- DECFSZ and INCFSZ (R127, R129): an operation that writes no status bit, and a skip when the result is 0x00. -/
def fileSkipOp (m : RegMap) (inp : StepInput) (op : Byte → Byte) (f : FileAddr) (d : Dest) (s : State) :
    Except Refusal State :=
  match m.read f inp s with
  | .error r => .error r
  | .ok (v, t) =>
    match writeDest m false d f (op v) t.advance with
    | .error r => .error r
    | .ok u => .ok (skipIf (zeroFlag (op v)) s.pc u)

/-- BTFSC and BTFSS (R153, R154): one read of f, no write, and a skip when bit b has the value `sense`. -/
def bitTestOp (m : RegMap) (inp : StepInput) (sense : Bool) (f : FileAddr) (b : BitNum) (s : State) : Except Refusal State :=
  match m.read f inp s with
  | .error r => .error r
  | .ok (v, t) => .ok (skipIf (v.getLsbD b.toNat == sense) s.pc t.advance)

/-- The literal instructions that write W and the listed status bits (R160). -/
def literalOp (out : AluOut) (s : State) : State := ((s.setFlags out.flags).setW out.value).advance

end Sys2Proof.Machine
end

