-- ==== Sys2Proof/Machine/BitOriented.lean ====
section
/-! DEFINITION. The four bit-oriented file register operations (spec 41_bit_oriented.md R150 to R154). Each is
written for any RegMap and step input, and taken at the default RegMap (20_memory.md R63). -/

namespace Sys2Proof.Machine

/-- R151 BCF: 0 → (f<b>); all eight bits are read and written; no status bit. -/
def execBcfOn (m : RegMap) (inp : StepInput) (f : FileAddr) (b : BitNum) (s : State) : Host.Outcome State Fault Refusal :=
  finish (fileOp m inp (fun _ _ v => aluPlain (v &&& ~~~(bitMask b))) f .file s)

/-- BCF with the default RegMap. -/
def execBcf (f : FileAddr) (b : BitNum) (s : State) : Host.Outcome State Fault Refusal := execBcfOn defaultRegMap {} f b s

/-- R152 BSF: 1 → (f<b>); all eight bits are read and written; no status bit. -/
def execBsfOn (m : RegMap) (inp : StepInput) (f : FileAddr) (b : BitNum) (s : State) : Host.Outcome State Fault Refusal :=
  finish (fileOp m inp (fun _ _ v => aluPlain (v ||| bitMask b)) f .file s)

/-- BSF with the default RegMap. -/
def execBsf (f : FileAddr) (b : BitNum) (s : State) : Host.Outcome State Fault Refusal := execBsfOn defaultRegMap {} f b s

/-- R153 BTFSC: skip if (f<b>) = 0; f is read and never written. -/
def execBtfscOn (m : RegMap) (inp : StepInput) (f : FileAddr) (b : BitNum) (s : State) : Host.Outcome State Fault Refusal :=
  finish (bitTestOp m inp false f b s)

/-- BTFSC with the default RegMap. -/
def execBtfsc (f : FileAddr) (b : BitNum) (s : State) : Host.Outcome State Fault Refusal := execBtfscOn defaultRegMap {} f b s

/-- R154 BTFSS: skip if (f<b>) = 1; f is read and never written. -/
def execBtfssOn (m : RegMap) (inp : StepInput) (f : FileAddr) (b : BitNum) (s : State) : Host.Outcome State Fault Refusal :=
  finish (bitTestOp m inp true f b s)

/-- BTFSS with the default RegMap. -/
def execBtfss (f : FileAddr) (b : BitNum) (s : State) : Host.Outcome State Fault Refusal := execBtfssOn defaultRegMap {} f b s

end Sys2Proof.Machine
end

