-- ==== Sys2Proof/Machine/ByteOriented.lean ====
section
/-! DEFINITION. The eighteen byte-oriented file register operations (spec 40_byte_oriented.md R120 to R138). Each that names
a file register is written for any RegMap and step input, and taken at the default RegMap (20_memory.md R63). -/

namespace Sys2Proof.Machine

/-- R121 ADDWF: (W) + (f) → (destination); C, DC, Z. -/
def execAddwfOn (m : RegMap) (inp : StepInput) (f : FileAddr) (d : Dest) (s : State) : Host.Outcome State Fault Refusal :=
  finish (fileOp m inp (fun w _ v => aluAdd w v) f d s)

/-- ADDWF with the default RegMap. -/
def execAddwf (f : FileAddr) (d : Dest) (s : State) : Host.Outcome State Fault Refusal := execAddwfOn defaultRegMap {} f d s

/-- R122 ANDWF: (W) .AND. (f) → (destination); Z. -/
def execAndwfOn (m : RegMap) (inp : StepInput) (f : FileAddr) (d : Dest) (s : State) : Host.Outcome State Fault Refusal :=
  finish (fileOp m inp (fun w _ v => aluZ (w &&& v)) f d s)

/-- ANDWF with the default RegMap. -/
def execAndwf (f : FileAddr) (d : Dest) (s : State) : Host.Outcome State Fault Refusal := execAndwfOn defaultRegMap {} f d s

/-- R123 CLRF: 00h → (f), then 1 → Z; the read is performed, its value unused. -/
def execClrfOn (m : RegMap) (inp : StepInput) (f : FileAddr) (s : State) : Host.Outcome State Fault Refusal :=
  finish (clearOp m inp f s)

/-- CLRF with the default RegMap. -/
def execClrf (f : FileAddr) (s : State) : Host.Outcome State Fault Refusal := execClrfOn defaultRegMap {} f s

/-- R124 CLRW: 00h → (W), 1 → Z; no file register is read or written. -/
def execClrw (s : State) : Host.Outcome State Fault Refusal :=
  .next (literalOp (aluZ 0x00#8) s)

/-- R125 COMF: the one's complement of (f) → (destination); Z. -/
def execComfOn (m : RegMap) (inp : StepInput) (f : FileAddr) (d : Dest) (s : State) : Host.Outcome State Fault Refusal :=
  finish (fileOp m inp (fun _ _ v => aluZ (~~~v)) f d s)

/-- COMF with the default RegMap. -/
def execComf (f : FileAddr) (d : Dest) (s : State) : Host.Outcome State Fault Refusal := execComfOn defaultRegMap {} f d s

/-- R126 DECF: (f) - 1 → (destination); Z only. -/
def execDecfOn (m : RegMap) (inp : StepInput) (f : FileAddr) (d : Dest) (s : State) : Host.Outcome State Fault Refusal :=
  finish (fileOp m inp (fun _ _ v => aluZ (v - 1)) f d s)

/-- DECF with the default RegMap. -/
def execDecf (f : FileAddr) (d : Dest) (s : State) : Host.Outcome State Fault Refusal := execDecfOn defaultRegMap {} f d s

/-- R127 DECFSZ: (f) - 1 → (destination), skip if result = 0; no status bit. -/
def execDecfszOn (m : RegMap) (inp : StepInput) (f : FileAddr) (d : Dest) (s : State) : Host.Outcome State Fault Refusal :=
  finish (fileSkipOp m inp (fun v => v - 1) f d s)

/-- DECFSZ with the default RegMap. -/
def execDecfsz (f : FileAddr) (d : Dest) (s : State) : Host.Outcome State Fault Refusal := execDecfszOn defaultRegMap {} f d s

/-- R128 INCF: (f) + 1 → (destination); Z only. -/
def execIncfOn (m : RegMap) (inp : StepInput) (f : FileAddr) (d : Dest) (s : State) : Host.Outcome State Fault Refusal :=
  finish (fileOp m inp (fun _ _ v => aluZ (v + 1)) f d s)

/-- INCF with the default RegMap. -/
def execIncf (f : FileAddr) (d : Dest) (s : State) : Host.Outcome State Fault Refusal := execIncfOn defaultRegMap {} f d s

/-- R129 INCFSZ: (f) + 1 → (destination), skip if result = 0; no status bit. -/
def execIncfszOn (m : RegMap) (inp : StepInput) (f : FileAddr) (d : Dest) (s : State) : Host.Outcome State Fault Refusal :=
  finish (fileSkipOp m inp (fun v => v + 1) f d s)

/-- INCFSZ with the default RegMap. -/
def execIncfsz (f : FileAddr) (d : Dest) (s : State) : Host.Outcome State Fault Refusal := execIncfszOn defaultRegMap {} f d s

/-- R130 IORWF: (W) .OR. (f) → (destination); Z. -/
def execIorwfOn (m : RegMap) (inp : StepInput) (f : FileAddr) (d : Dest) (s : State) : Host.Outcome State Fault Refusal :=
  finish (fileOp m inp (fun w _ v => aluZ (w ||| v)) f d s)

/-- IORWF with the default RegMap. -/
def execIorwf (f : FileAddr) (d : Dest) (s : State) : Host.Outcome State Fault Refusal := execIorwfOn defaultRegMap {} f d s

/-- R131 MOVF: (f) → (destination); Z. -/
def execMovfOn (m : RegMap) (inp : StepInput) (f : FileAddr) (d : Dest) (s : State) : Host.Outcome State Fault Refusal :=
  finish (fileOp m inp (fun _ _ v => aluZ v) f d s)

/-- MOVF with the default RegMap. -/
def execMovf (f : FileAddr) (d : Dest) (s : State) : Host.Outcome State Fault Refusal := execMovfOn defaultRegMap {} f d s

/-- R132 MOVWF: (W) → (f); no status bit; the read is performed, its value unused. -/
def execMovwfOn (m : RegMap) (inp : StepInput) (f : FileAddr) (s : State) : Host.Outcome State Fault Refusal :=
  finish (fileOp m inp (fun w _ _ => aluPlain w) f .file s)

/-- MOVWF with the default RegMap. -/
def execMovwf (f : FileAddr) (s : State) : Host.Outcome State Fault Refusal := execMovwfOn defaultRegMap {} f s

/-- R133 NOP: nothing but pc advances. -/
def execNop (s : State) : Host.Outcome State Fault Refusal :=
  .next s.advance

/-- R134 RLF: rotate left f through Carry; C only. -/
def execRlfOn (m : RegMap) (inp : StepInput) (f : FileAddr) (d : Dest) (s : State) : Host.Outcome State Fault Refusal :=
  finish (fileOp m inp (fun _ c v => aluRlf c v) f d s)

/-- RLF with the default RegMap. -/
def execRlf (f : FileAddr) (d : Dest) (s : State) : Host.Outcome State Fault Refusal := execRlfOn defaultRegMap {} f d s

/-- R135 RRF: rotate right f through Carry; C only. -/
def execRrfOn (m : RegMap) (inp : StepInput) (f : FileAddr) (d : Dest) (s : State) : Host.Outcome State Fault Refusal :=
  finish (fileOp m inp (fun _ c v => aluRrf c v) f d s)

/-- RRF with the default RegMap. -/
def execRrf (f : FileAddr) (d : Dest) (s : State) : Host.Outcome State Fault Refusal := execRrfOn defaultRegMap {} f d s

/-- R136 SUBWF: (f) - (W) → (destination); C, DC, Z. -/
def execSubwfOn (m : RegMap) (inp : StepInput) (f : FileAddr) (d : Dest) (s : State) : Host.Outcome State Fault Refusal :=
  finish (fileOp m inp (fun w _ v => aluSub v w) f d s)

/-- SUBWF with the default RegMap. -/
def execSubwf (f : FileAddr) (d : Dest) (s : State) : Host.Outcome State Fault Refusal := execSubwfOn defaultRegMap {} f d s

/-- R137 SWAPF: the digits of (f) exchanged → (destination); no status bit. -/
def execSwapfOn (m : RegMap) (inp : StepInput) (f : FileAddr) (d : Dest) (s : State) : Host.Outcome State Fault Refusal :=
  finish (fileOp m inp (fun _ _ v => aluPlain (swapDigits v)) f d s)

/-- SWAPF with the default RegMap. -/
def execSwapf (f : FileAddr) (d : Dest) (s : State) : Host.Outcome State Fault Refusal := execSwapfOn defaultRegMap {} f d s

/-- R138 XORWF: (W) .XOR. (f) → (destination); Z. -/
def execXorwfOn (m : RegMap) (inp : StepInput) (f : FileAddr) (d : Dest) (s : State) : Host.Outcome State Fault Refusal :=
  finish (fileOp m inp (fun w _ v => aluZ (w ^^^ v)) f d s)

/-- XORWF with the default RegMap. -/
def execXorwf (f : FileAddr) (d : Dest) (s : State) : Host.Outcome State Fault Refusal := execXorwfOn defaultRegMap {} f d s

end Sys2Proof.Machine
end

