-- ==== Sys2Proof/Machine/LiteralControl.lean ====
section
/-! DEFINITION. The thirteen literal and control operations (spec 42_literal_control.md R160 to R173). -/

namespace Sys2Proof.Machine

/-- R161 ADDLW: (W) + k → (W); C, DC, Z. -/
def execAddlw (k : Byte) (s : State) : Host.Outcome State Fault Refusal :=
  .next (literalOp (aluAdd s.w k) s)

/-- R162 ANDLW: (W) .AND. (k) → (W); Z. -/
def execAndlw (k : Byte) (s : State) : Host.Outcome State Fault Refusal :=
  .next (literalOp (aluZ (s.w &&& k)) s)

/-- R163 CALL: (PC) + 1 → TOS, then PCLATH<4:3> ++ k → PC; refuses on a full stack. -/
def execCall (k : PageAddr) (s : State) : Host.Outcome State Fault Refusal :=
  match push s (s.pc + 1) with
  | .error r => .refused r
  | .ok t => .next (t.setPc (pageTarget s k))

/-- R164 CLRWDT: 00h → WDT, 0 → WDT prescaler, 1 → TO, 1 → PD. -/
def execClrwdt (s : State) : Host.Outcome State Fault Refusal :=
  .next { (clearWatchdog s).advance with nTO := true, nPD := true }

/-- R165 GOTO: PCLATH<4:3> ++ k → PC. -/
def execGoto (k : PageAddr) (s : State) : Host.Outcome State Fault Refusal :=
  .next (s.setPc (pageTarget s k))

/-- R166 IORLW: (W) .OR. k → (W); Z. -/
def execIorlw (k : Byte) (s : State) : Host.Outcome State Fault Refusal :=
  .next (literalOp (aluZ (s.w ||| k)) s)

/-- R167 MOVLW: k → (W); no status bit, not even Z. -/
def execMovlw (k : Byte) (s : State) : Host.Outcome State Fault Refusal :=
  .next (literalOp (aluPlain k) s)

/-- R168 RETFIE: TOS → PC, 1 → GIE; refuses on an empty stack. -/
def execRetfie (s : State) : Host.Outcome State Fault Refusal :=
  finish (returnFromInterrupt s)

/-- R169 RETLW: k → (W), TOS → PC; refuses on an empty stack. -/
def execRetlw (k : Byte) (s : State) : Host.Outcome State Fault Refusal :=
  finish (popPc (s.setW k))

/-- R170 RETURN: TOS → PC; refuses on an empty stack. -/
def execReturn (s : State) : Host.Outcome State Fault Refusal :=
  finish (popPc s)

/-- R171 SLEEP: 00h → WDT, 0 → WDT prescaler, 1 → TO, 0 → PD, and Sleep mode; pc advances. Unconditional (D11, log 19). -/
def execSleep (s : State) : Host.Outcome State Fault Refusal :=
  .next { (clearWatchdog s).advance with nTO := true, nPD := false, sleeping := true }

/-- R172 SUBLW: k - (W) → (W); C, DC, Z. -/
def execSublw (k : Byte) (s : State) : Host.Outcome State Fault Refusal :=
  .next (literalOp (aluSub k s.w) s)

/-- R173 XORLW: (W) .XOR. k → (W); Z. -/
def execXorlw (k : Byte) (s : State) : Host.Outcome State Fault Refusal :=
  .next (literalOp (aluZ (s.w ^^^ k)) s)

end Sys2Proof.Machine
end

