-- ==== Sys2Proof/Machine/Step.lean ====
section
/-! DEFINITION. One step of the machine (spec 10_state.md R52, 60_exceptions.md R198, R206), and the host's entry that places an
instruction where the next step fetches. -/

namespace Sys2Proof.Machine

/-- One step: what the instruction boundary comes to, or else the instruction fetched at pc. -/
def step (s : State) : Host.Outcome State Fault Refusal := stepWith defaultPlatform (fun _ i t => exec i t) s

/-- The state with an opcode-table word loaded at pc, where the next step of an awake machine fetches. The word has 14 bits, so
`nbits` says nothing more (R90; log 2). -/
def State.withFetchWord (s : State) (_nbits w : Nat) : State := loadWord s s.pc (BitVec.ofNat 14 w)

end Sys2Proof.Machine
end

