-- ==== Sys2Proof/Machine/Effects.lean ====
section
/-! DEFINITION. What an instruction may touch, read off its name and operands alone: the spec's tables of who writes W
(10_state.md R21), which status bits are listed (R36), which file register is read and which is written (20_memory.md R65),
and which instructions transfer control (42_literal_control.md R174). The machine does not run these tables: the cycle count
and the statements use them. -/

namespace Sys2Proof

/-- The file register the instruction names and so reads, once (R65, R120, R150). -/
def Instr.fileNamed : Instr → Option FileAddr
  | .addwf f _ | .andwf f _ | .comf f _ | .decf f _ | .decfsz f _ | .incf f _ | .incfsz f _ | .iorwf f _ | .movf f _ => some f
  | .rlf f _ | .rrf f _ | .subwf f _ | .swapf f _ | .xorwf f _ => some f
  | .clrf f | .movwf f => some f
  | .bcf f _ | .bsf f _ | .btfsc f _ | .btfss f _ => some f
  | .clrw | .nop | .addlw _ | .andlw _ | .call _ | .clrwdt | .goto _ | .iorlw _ | .movlw _ | .retfie | .retlw _ | .ret => none
  | .sleep | .sublw _ | .xorlw _ => none

/-- The file register the instruction writes: the one it names, when d = 1 or the instruction is CLRF, MOVWF, BCF or BSF
(R65). -/
def Instr.fileWritten : Instr → Option FileAddr
  | .addwf f .file | .andwf f .file | .comf f .file | .decf f .file | .decfsz f .file | .incf f .file | .incfsz f .file => some f
  | .iorwf f .file | .movf f .file | .rlf f .file | .rrf f .file | .subwf f .file | .swapf f .file | .xorwf f .file => some f
  | .addwf _ .w | .andwf _ .w | .comf _ .w | .decf _ .w | .decfsz _ .w | .incf _ .w | .incfsz _ .w => none
  | .iorwf _ .w | .movf _ .w | .rlf _ .w | .rrf _ .w | .subwf _ .w | .swapf _ .w | .xorwf _ .w => none
  | .clrf f | .movwf f | .bcf f _ | .bsf f _ => some f
  | .btfsc _ _ | .btfss _ _ => none
  | .clrw | .nop | .addlw _ | .andlw _ | .call _ | .clrwdt | .goto _ | .iorlw _ | .movlw _ | .retfie | .retlw _ | .ret => none
  | .sleep | .sublw _ | .xorlw _ => none

/-- The instructions that write W (R21). -/
def Instr.writesW : Instr → Bool
  | .addwf _ d | .andwf _ d | .comf _ d | .decf _ d | .decfsz _ d | .incf _ d | .incfsz _ d => decide (d = .w)
  | .iorwf _ d | .movf _ d | .rlf _ d | .rrf _ d | .subwf _ d | .swapf _ d | .xorwf _ d => decide (d = .w)
  | .clrw | .addlw _ | .andlw _ | .iorlw _ | .movlw _ | .retlw _ | .sublw _ | .xorlw _ => true
  | .clrf _ | .movwf _ | .nop | .bcf _ _ | .bsf _ _ | .btfsc _ _ | .btfss _ _ => false
  | .call _ | .clrwdt | .goto _ | .retfie | .ret | .sleep => false

/-- The instructions that list C and DC (R36, first row). -/
def Instr.listsDigitCarry : Instr → Bool
  | .addwf _ _ | .subwf _ _ | .addlw _ | .sublw _ => true
  | .andwf _ _ | .clrf _ | .clrw | .comf _ _ | .decf _ _ | .decfsz _ _ | .incf _ _ | .incfsz _ _ | .iorwf _ _ => false
  | .movf _ _ | .movwf _ | .nop | .rlf _ _ | .rrf _ _ | .swapf _ _ | .xorwf _ _ => false
  | .bcf _ _ | .bsf _ _ | .btfsc _ _ | .btfss _ _ => false
  | .andlw _ | .call _ | .clrwdt | .goto _ | .iorlw _ | .movlw _ | .retfie | .retlw _ | .ret | .sleep | .xorlw _ => false

/-- The instructions that list C (R36, first and third rows). -/
def Instr.listsCarry : Instr → Bool
  | .addwf _ _ | .subwf _ _ | .addlw _ | .sublw _ | .rlf _ _ | .rrf _ _ => true
  | .andwf _ _ | .clrf _ | .clrw | .comf _ _ | .decf _ _ | .decfsz _ _ | .incf _ _ | .incfsz _ _ | .iorwf _ _ => false
  | .movf _ _ | .movwf _ | .nop | .swapf _ _ | .xorwf _ _ | .bcf _ _ | .bsf _ _ | .btfsc _ _ | .btfss _ _ => false
  | .andlw _ | .call _ | .clrwdt | .goto _ | .iorlw _ | .movlw _ | .retfie | .retlw _ | .ret | .sleep | .xorlw _ => false

/-- The instructions that list Z (R36, first and second rows). -/
def Instr.listsZero : Instr → Bool
  | .addwf _ _ | .subwf _ _ | .addlw _ | .sublw _ => true
  | .andwf _ _ | .clrf _ | .clrw | .comf _ _ | .decf _ _ | .incf _ _ | .iorwf _ _ | .movf _ _ | .xorwf _ _ => true
  | .andlw _ | .iorlw _ | .xorlw _ => true
  | .decfsz _ _ | .incfsz _ _ | .movwf _ | .nop | .rlf _ _ | .rrf _ _ | .swapf _ _ => false
  | .bcf _ _ | .bsf _ _ | .btfsc _ _ | .btfss _ _ => false
  | .call _ | .clrwdt | .goto _ | .movlw _ | .retfie | .retlw _ | .ret | .sleep => false

/-- The instructions that always transfer control: CALL, GOTO and the returns (R174; two cycles each, R230). -/
def Instr.transfers : Instr → Bool
  | .call _ | .goto _ | .retfie | .retlw _ | .ret => true
  | .addwf _ _ | .andwf _ _ | .clrf _ | .clrw | .comf _ _ | .decf _ _ | .decfsz _ _ | .incf _ _ | .incfsz _ _ => false
  | .iorwf _ _ | .movf _ _ | .movwf _ | .nop | .rlf _ _ | .rrf _ _ | .subwf _ _ | .swapf _ _ | .xorwf _ _ => false
  | .bcf _ _ | .bsf _ _ | .btfsc _ _ | .btfss _ _ => false
  | .addlw _ | .andlw _ | .clrwdt | .iorlw _ | .movlw _ | .sleep | .sublw _ | .xorlw _ => false

/-- The four skip instructions (R25). -/
def Instr.skips : Instr → Bool
  | .decfsz _ _ | .incfsz _ _ | .btfsc _ _ | .btfss _ _ => true
  | .addwf _ _ | .andwf _ _ | .clrf _ | .clrw | .comf _ _ | .decf _ _ | .incf _ _ | .iorwf _ _ | .movf _ _ => false
  | .movwf _ | .nop | .rlf _ _ | .rrf _ _ | .subwf _ _ | .swapf _ _ | .xorwf _ _ | .bcf _ _ | .bsf _ _ => false
  | .addlw _ | .andlw _ | .call _ | .clrwdt | .goto _ | .iorlw _ | .movlw _ | .retfie | .retlw _ | .ret => false
  | .sleep | .sublw _ | .xorlw _ => false

/-- The three returns, which pop the return stack (R29). -/
def Instr.pops : Instr → Bool
  | .retfie | .retlw _ | .ret => true
  | .addwf _ _ | .andwf _ _ | .clrf _ | .clrw | .comf _ _ | .decf _ _ | .decfsz _ _ | .incf _ _ | .incfsz _ _ => false
  | .iorwf _ _ | .movf _ _ | .movwf _ | .nop | .rlf _ _ | .rrf _ _ | .subwf _ _ | .swapf _ _ | .xorwf _ _ => false
  | .bcf _ _ | .bsf _ _ | .btfsc _ _ | .btfss _ _ => false
  | .addlw _ | .andlw _ | .call _ | .clrwdt | .goto _ | .iorlw _ | .movlw _ | .sleep | .sublw _ | .xorlw _ => false

/-- CALL, which pushes the return stack (R28). -/
def Instr.pushes : Instr → Bool
  | .call _ => true
  | .addwf _ _ | .andwf _ _ | .clrf _ | .clrw | .comf _ _ | .decf _ _ | .decfsz _ _ | .incf _ _ | .incfsz _ _ => false
  | .iorwf _ _ | .movf _ _ | .movwf _ | .nop | .rlf _ _ | .rrf _ _ | .subwf _ _ | .swapf _ _ | .xorwf _ _ => false
  | .bcf _ _ | .bsf _ _ | .btfsc _ _ | .btfss _ _ => false
  | .addlw _ | .andlw _ | .clrwdt | .goto _ | .iorlw _ | .movlw _ | .retfie | .retlw _ | .ret | .sleep | .sublw _ => false
  | .xorlw _ => false

end Sys2Proof
end

