-- ==== Sys2Proof/Machine/Cycles.lean ====
section
/-! DEFINITION. Instruction cycles (spec 70_reset_and_hazards.md R229, R230) as an observer beside the machine: no state depends
on them (R231, D15; log 26). -/

namespace Sys2Proof.Machine

/-- `OSC_PER_CYCLE`: "One instruction cycle consists of four oscillator periods" (R229). -/
def oscPerCycle : Nat := 4

/-- The value f holds for a read at a state; 0x00 stands where RegMap defines no register and the instruction refuses. -/
def fileValue (s : State) (f : FileAddr) : Byte :=
  match fileReg s f with
  | some r => readValue r s
  | none => 0x00#8

/-- Whether the conditional test of a skip instruction is true (R127, R129, R153, R154). -/
def testHolds (i : Instr) (s : State) : Bool :=
  match i with
  | .decfsz f _ => zeroFlag (fileValue s f - 1)
  | .incfsz f _ => zeroFlag (fileValue s f + 1)
  | .btfsc f b => (fileValue s f).getLsbD b.toNat == false
  | .btfss f b => (fileValue s f).getLsbD b.toNat == true
  | .addwf _ _ | .andwf _ _ | .clrf _ | .clrw | .comf _ _ | .decf _ _ | .incf _ _ | .iorwf _ _ | .movf _ _ => false
  | .movwf _ | .nop | .rlf _ _ | .rrf _ _ | .subwf _ _ | .swapf _ _ | .xorwf _ _ | .bcf _ _ | .bsf _ _ => false
  | .addlw _ | .andlw _ | .call _ | .clrwdt | .goto _ | .iorlw _ | .movlw _ | .retfie | .retlw _ | .ret => false
  | .sleep | .sublw _ | .xorlw _ => false

/-- Whether the instruction writes the program counter's file register (R26). -/
def writesPcl (i : Instr) (s : State) : Bool := decide (i.fileWritten.bind (fileReg s) = some .pcl)

/-- The cycles an instruction takes at a state: two for CALL, GOTO and the returns, two when a test is true or the program counter
is written as a file register, one otherwise (R229, R230). That DECFSZ and INCFSZ take two when they write it and do
not skip rests on 90_conflicts.md C14, R120 (f) and R49. -/
def cycles (i : Instr) (s : State) : Nat :=
  if i.transfers || testHolds i s || writesPcl i s then 2 else 1

/-- The oscillator periods an instruction takes (R229). -/
def oscPeriods (i : Instr) (s : State) : Nat := oscPerCycle * cycles i s

end Sys2Proof.Machine
end

