-- ==== Sys2Proof/Machine/Platform.lean ====
section
/-! DEFINITION. The machine with its open functions as arguments (spec 00_scope.md R5): any RegMap, a pair of a read and a write over
the whole state (20_memory.md R63), any IntReq and any WakeEvent (60_exceptions.md R196, R206), in place of the defaults that
`exec` and `step` use. -/

namespace Sys2Proof.Machine

/-- The meaning of an instruction under a RegMap, with the step's input, which RegMap's read may look at (R63). An instruction that
names no file register does not touch RegMap and has the meaning it has in `exec`. -/
def execOn (m : RegMap) (inp : StepInput) (i : Instr) (s : State) : Host.Outcome State Fault Refusal :=
  match i with
  | .addwf f d => execAddwfOn m inp f d s
  | .andwf f d => execAndwfOn m inp f d s
  | .clrf f => execClrfOn m inp f s
  | .clrw => execClrw s
  | .comf f d => execComfOn m inp f d s
  | .decf f d => execDecfOn m inp f d s
  | .decfsz f d => execDecfszOn m inp f d s
  | .incf f d => execIncfOn m inp f d s
  | .incfsz f d => execIncfszOn m inp f d s
  | .iorwf f d => execIorwfOn m inp f d s
  | .movf f d => execMovfOn m inp f d s
  | .movwf f => execMovwfOn m inp f s
  | .nop => execNop s
  | .rlf f d => execRlfOn m inp f d s
  | .rrf f d => execRrfOn m inp f d s
  | .subwf f d => execSubwfOn m inp f d s
  | .swapf f d => execSwapfOn m inp f d s
  | .xorwf f d => execXorwfOn m inp f d s
  | .bcf f b => execBcfOn m inp f b s
  | .bsf f b => execBsfOn m inp f b s
  | .btfsc f b => execBtfscOn m inp f b s
  | .btfss f b => execBtfssOn m inp f b s
  | .addlw k => execAddlw k s
  | .andlw k => execAndlw k s
  | .call k => execCall k s
  | .clrwdt => execClrwdt s
  | .goto k => execGoto k s
  | .iorlw k => execIorlw k s
  | .movlw k => execMovlw k s
  | .retfie => execRetfie s
  | .retlw k => execRetlw k s
  | .ret => execReturn s
  | .sleep => execSleep s
  | .sublw k => execSublw k s
  | .xorlw k => execXorlw k s

/-- One step of the machine under a platform. -/
def stepOn (p : Platform) (s : State) : Host.Outcome State Fault Refusal := stepWith p (execOn p.regMap) s

end Sys2Proof.Machine
end

