-- ==== Sys2Proof/Safety.lean ====
section
/-! DEFINITION. The terms in which statements speak of words, states and steps: the words of a row of the opcode map, the
destination of a result, the invariant of the machine, boundaries at which the fetched instruction runs, and runs that stop
nowhere. -/

namespace Sys2Proof.Machine

/-- The invariant: program memory, storage, latches and pins in canonical form within their address spaces (R60, R61), the
return stack within its depth (R28), no condition listed twice, and the pins named by inputs to come inside the data space. -/
abbrev StateInv (s : State) : Prop :=
  Memory.wf 8192 (some Config.unloadedWord) s.prog ∧ Memory.wf 512 none s.ram ∧ Memory.wf 512 none s.latch
    ∧ Memory.wf 512 none s.pins ∧ s.stk.length ≤ s.params.stackDepth ∧ s.conds.Nodup
    ∧ ∀ inp ∈ s.inputs, ∀ e ∈ inp.pins, e.1 < 512

/-- A Watchdog time-out is raised at this boundary, where the Watchdog Timer is enabled (R208). -/
abbrev TimeOutRaised (s : State) : Prop := (currentInput s).watchdog = true ∧ s.params.wdtEnabled = true

/-- Some source requests an interrupt at this boundary (R195, R196; PRESUMED, log 15): its enable bit in INTCON is 1 and its flag is 1
in INTCON or is set by this step's input; for a peripheral source PEIE is 1. T0IE and T0IF are bits 5 and 2, INTE and INTF bits 4
and 1, RBIE and RBIF bits 3 and 0, PEIE is bit 6. -/
abbrev InterruptRequested (s : State) : Prop :=
  (s.intcon.getLsbD 5 = true ∧ (s.intcon.getLsbD 2 = true ∨ (currentInput s).flags.getLsbD 2 = true))
    ∨ (s.intcon.getLsbD 4 = true ∧ (s.intcon.getLsbD 1 = true ∨ (currentInput s).flags.getLsbD 1 = true))
    ∨ (s.intcon.getLsbD 3 = true ∧ (s.intcon.getLsbD 0 = true ∨ (currentInput s).flags.getLsbD 0 = true))
    ∨ (s.intcon.getLsbD 6 = true ∧ (currentInput s).peripheral = true)

/-- No event comes before the instruction at this boundary: the processor is awake, no reset and no Watchdog time-out is raised,
and no interrupt is taken (R52, R197, R198). -/
abbrev NoEvent (s : State) : Prop :=
  s.sleeping = false ∧ (currentInput s).reset = none ∧ ¬ TimeOutRaised s ∧ ¬ (s.gie = true ∧ InterruptRequested s)

/-- The step has a next state. -/
abbrev StepSafe (s : State) : Prop := ∃ t, step s = .next t

/-- The program stays within the implemented program memory (R5 `PROG_WORDS`, R60). -/
abbrev ProgramFits (s : State) : Prop := ∀ e ∈ s.prog, e.1 < s.params.progWords.val

/-- k steps have next states. -/
abbrev RunSafe (k : Nat) (s : State) : Prop := ∃ t, Sys2Proof.core.run k s = .next t

/-- Every word of a row (`ir & mask = value`, R99) decodes to the instruction `build` reads from its fields. -/
def Encoded (mask value : Word) (build : Word → Instr) : Prop := ∀ ir : Word, ir &&& mask = value → decode ir = some (build ir)

/-- `Dest(d, f, v)` where f selects the register r (R11): W when d = 0, r when d = 1. -/
def stored (d : Dest) (masked : Bool) (r : FileReg) (v : Byte) (s : State) : State :=
  match d with
  | .w => s.setW v
  | .file => writeReg masked r v s

/-- The register an instruction writes at a state, if it writes a file register (R65). -/
def regWritten (i : Instr) (s : State) : Option FileReg := i.fileWritten.bind (fileReg s)

/-- The register an instruction reads at a state, if it names a file register (R65). -/
def regRead (i : Instr) (s : State) : Option FileReg := i.fileNamed.bind (fileReg s)

/-- What every reset leaves (R220, R221): execution restarts at RESET_VECTOR, awake, with an empty stack, and the special registers
at the values the spec gives them; the program and the parameters stay. -/
def Restarted (s t : State) : Prop :=
  t.pc = s.params.resetVector ∧ t.stk = [] ∧ t.sleeping = false ∧ t.gie = false ∧ t.pclath = 0 ∧ t.irp = false ∧ t.rp = 0
    ∧ t.optionReg = 0xFF ∧ t.intcon.extractLsb' 1 6 = 0#6 ∧ t.prog = s.prog ∧ t.params = s.params

/-- What a reset other than power-on keeps (R221): W, C, DC, Z, FSR and every storage register. -/
def Kept (s t : State) : Prop :=
  t.w = s.w ∧ t.c = s.c ∧ t.dc = s.dc ∧ t.z = s.z ∧ t.fsr = s.fsr ∧ ∀ a, storageRead t a = storageRead s a

/-- A function of the next state, where there is one. -/
def mapNext (g : State → State) (o : Host.Outcome State Fault Refusal) : Host.Outcome State Fault Refusal :=
  match o with
  | .next s => .next (g s)
  | .fault r => .fault r
  | .refused r => .refused r

end Sys2Proof.Machine
end

