-- ==== Sys2Proof/Certificates/Slice0/Obligations.lean ====
section
/-! DEFINITION. The statements for the provers. Each docstring names the rules of the spec it formalises; a clause that rests
on a choice of the model says so. -/

open Sys2Proof Sys2Proof.Machine

/-! ### Encoding -/

/-- R97: the five fields, each an unsigned slice of the word, nowhere extended, scaled, shifted or split; k11 becomes the low 11
bits of a target as it stands. -/
def Obligations.FieldExtraction : Prop :=
  ∀ (ir : Word) (s : State),
    (fieldF ir).toNat = ir.toNat % 128
      ∧ (fieldD ir = .file ↔ ir.toNat / 128 % 2 = 1)
      ∧ (fieldB ir).toNat = ir.toNat / 128 % 8
      ∧ (fieldK8 ir).toNat = ir.toNat % 256
      ∧ (fieldK11 ir).toNat = ir.toNat % 2048
      ∧ (pageTarget s (fieldK11 ir)).toNat % 2048 = (fieldK11 ir).toNat

/-- R98: a word decodes to the instruction of the one row it satisfies, and to none when it satisfies none of the 35; the fetch of
such a word refuses as ReservedOpcode. -/
def Obligations.DecodeFollowsTheOneRow : Prop :=
  opcodeRows.length = 35
    ∧ ∀ ir : Word,
        (∀ i, decode ir = some i ↔ ∃ row ∈ opcodeRows, ir &&& row.mask = row.value ∧ row.build ir = i)
          ∧ (decode ir = none ↔ ∀ row ∈ opcodeRows, ir &&& row.mask ≠ row.value)
          ∧ (opcodeRows.filter (fun row => row.accepts ir)).length ≤ 1
          ∧ ∀ s : State, progRead s s.pc = ir → (fetch s = .error .reservedOpcode ↔ ∀ row ∈ opcodeRows, ir &&& row.mask ≠ row.value)

/-- R100, R101, which the spec derives from the opcode map: the map by opcode bits, a case split written from the other
description of the same map, is the decoder. -/
def Obligations.DecodersAgree : Prop := ∀ ir : Word, decode ir = decodeByBits ir

/-- R103, which the spec derives from the formats: the canonical encoding of every instruction, with every operand at every
value, decodes to that instruction. -/
def Obligations.DecodeOfEncode : Prop := ∀ i : Instr, decode (encode i) = some i

/-- R102: a word decodes to an instruction exactly when, its don't-care bits cleared, it is the instruction's canonical
encoding: whatever the don't-care bits hold, the word is the same instruction. -/
def Obligations.WordsOfAnInstruction : Prop :=
  ∀ (ir : Word) (i : Instr), decode ir = some i ↔ ir &&& ~~~(dontCareMask i) = encode i

/-- R104: the words that decode to no instruction are those of the seven listed ranges. -/
def Obligations.UnassignedWords : Prop :=
  ∀ ir : Word,
    decode ir = none ↔
      ((0x0001 ≤ ir.toNat ∧ ir.toNat ≤ 0x0007) ∨ (0x000A ≤ ir.toNat ∧ ir.toNat ≤ 0x001F)
        ∨ (0x0021 ≤ ir.toNat ∧ ir.toNat ≤ 0x003F) ∨ (0x0041 ≤ ir.toNat ∧ ir.toNat ≤ 0x005F)
        ∨ (0x0061 ≤ ir.toNat ∧ ir.toNat ≤ 0x0062) ∨ (0x0065 ≤ ir.toNat ∧ ir.toNat ≤ 0x007F)
        ∨ (0x3B00 ≤ ir.toNat ∧ ir.toNat ≤ 0x3BFF))

/-- R103, R106, R108, R110: disassembling the canonical word of an instruction and assembling the statement again gives the
word back, and every word prints as its instruction's statement. A statement assembles exactly when its mnemonic has an operand form
and its operands fit it: f up to 127, d up to 1 or omitted, b up to 7, k up to 255, a target up to 2047; so 128, 2, 8, 256 and
2048 do not. That a statement out of range assembles to nothing is the model's choice (log 32). -/
def Obligations.AssembleDisassemble : Prop :=
  (∀ i : Instr, assemble i.toAsm = some (encode i) ∧ disassemble (encode i) = some i.toAsm)
    ∧ (∀ (ir : Word) (i : Instr), decode ir = some i → disassemble ir = some i.toAsm)
    ∧ ∀ line : AsmLine,
        (assemble line = none ↔ line.wellFormed = false)
          ∧ (assemble line ≠ none ↔ ∃ form, (line.mnemonic, form) ∈ operandForms ∧
              match form with
              | .fileDest => ∃ f, f ≤ 127 ∧ (line.operands = [f] ∨ ∃ d, d ≤ 1 ∧ line.operands = [f, d])
              | .file => ∃ f, f ≤ 127 ∧ line.operands = [f]
              | .fileBit => ∃ f b, f ≤ 127 ∧ b ≤ 7 ∧ line.operands = [f, b]
              | .literal => ∃ k, k ≤ 255 ∧ line.operands = [k]
              | .target => ∃ k, k ≤ 2047 ∧ line.operands = [k]
              | .none => line.operands = [])

/-- R107: an omitted d operand is d = 1, for each of the fourteen instructions with a d operand. -/
def Obligations.OmittedDestinationIsFile : Prop :=
  ∀ (mnemonic : String) (f : Nat), (mnemonic, OperandForm.fileDest) ∈ operandForms →
    assemble ⟨mnemonic, [f]⟩ = assemble ⟨mnemonic, [f, 1]⟩

/-- Words of 30_encoding.md and 95_test_vectors.md section 2.1 and what they decode to. -/
def Obligations.SampleWordsDecode : Prop :=
  decode 0x07A0 = some (.addwf 0x20 .file) ∧ decode 0x0FFF = some (.incfsz 0x7F .file)
    ∧ decode 0x11A0 = some (.bcf 0x20 3) ∧ decode 0x1FFF = some (.btfss 0x7F 7)
    ∧ decode 0x27FF = some (.call 0x7FF) ∧ decode 0x3442 = some (.retlw 0x42) ∧ decode 0x3FFF = some (.addlw 0xFF)
    ∧ decode 0x0063 = some .sleep ∧ decode 0x0062 = none

/-! ### File registers -/

/-- R46, R47, general knowledge in the spec (log 6): the data address of f is RP1:RP0:f, and IRP:FSR when f is INDF. -/
def Obligations.DataAddressing : Prop :=
  ∀ (s : State) (f : FileAddr),
    (f ≠ 0x00 → (dataAddress s f).toNat = 128 * s.rp.toNat + f.toNat)
      ∧ (dataAddress s 0x00).toNat = 256 * s.irp.toNat + s.fsr.toNat

/-- R45, R47, R50, general knowledge in the spec (log 6): the default RegMap, with no register beyond the table. By bank and
in-bank address: INDF through itself at 0x00, TMR0 in banks 0 and 2 and OPTION_REG in banks 1 and 3 at 0x01, the core
registers in every bank, one common storage at 0x70 to 0x7F, bank-0 storage at 0x20 to 0x6F, and no register anywhere else. -/
def Obligations.DefaultRegisterMap : Prop :=
  ∀ (p : Params) (a : DataAddr), p.extra = [] →
    ((a.toNat % 128 = 0x00 → selectReg p a = some .indf)
      ∧ (a.toNat % 128 = 0x01 → selectReg p a = some (if a.toNat / 128 = 0 ∨ a.toNat / 128 = 2 then .tmr0 else .option))
      ∧ (a.toNat % 128 = 0x02 → selectReg p a = some .pcl)
      ∧ (a.toNat % 128 = 0x03 → selectReg p a = some .status)
      ∧ (a.toNat % 128 = 0x04 → selectReg p a = some .fsr)
      ∧ (a.toNat % 128 = 0x0A → selectReg p a = some .pclath)
      ∧ (a.toNat % 128 = 0x0B → selectReg p a = some .intcon)
      ∧ (0x70 ≤ a.toNat % 128 → selectReg p a = some (.storage (a.toNat % 128)))
      ∧ (0x20 ≤ a.toNat ∧ a.toNat ≤ 0x6F → selectReg p a = some (.storage a.toNat))
      ∧ (0x05 ≤ a.toNat % 128 ∧ a.toNat % 128 ≤ 0x09 → selectReg p a = none)
      ∧ (0x0C ≤ a.toNat % 128 ∧ a.toNat % 128 ≤ 0x1F → selectReg p a = none)
      ∧ (128 ≤ a.toNat ∧ 0x20 ≤ a.toNat % 128 ∧ a.toNat % 128 ≤ 0x6F → selectReg p a = none))

/-- R47, general knowledge in the spec (log 6): INDF addressed through itself, which is when FSR<6:0> is 0, reads 0x00 and stores
nothing; the status bits are still written as the instruction says. -/
def Obligations.IndfThroughItself : Prop :=
  ∀ s : State, s.fsr.toNat % 128 = 0 →
    fileReg s 0x00 = some .indf
      ∧ exec (.movf 0x00 .w) s = .next { s with w := 0x00, z := true, pc := s.pc + 1 }
      ∧ exec (.movwf 0x00) s = .next { s with pc := s.pc + 1 }
      ∧ exec (.incf 0x00 .file) s = .next { s with z := false, pc := s.pc + 1 }
      ∧ ∀ b : BitNum, exec (.bsf 0x00 b) s = .next { s with pc := s.pc + 1 }

/-- R64: a plain storage register reads as the value of the most recent write to it; a read changes nothing; a write changes
that register and nothing else. -/
def Obligations.PlainStorage : Prop :=
  ∀ (s : State) (f : FileAddr) (a : Nat), fileReg s f = some (.storage a) →
    readFile f s = .ok (storageRead s a, s)
      ∧ ∀ (masked : Bool) (v : Byte), ∃ t, writeFile masked f v s = .ok t
          ∧ (∀ b, storageRead t b = if b = a then v else storageRead s b) ∧ { t with ram := s.ram } = s
          ∧ readFile f t = .ok (v, t)

/-- R26, R49, the reading the spec decides on in D6 (log 22): a read of PCL during the instruction at pc gives the low byte of
pc + 1; a write of v makes PCLATH<4:0> ++ v the next address; PCLATH stays. The clauses are a read to W, a jump to W, and the
computed jump of the RETLW example. -/
def Obligations.ProgramCounterAsFileRegister : Prop :=
  ∀ (s : State) (f : FileAddr), fileReg s f = some .pcl →
    (∃ t, exec (.movf f .w) s = .next t ∧ t.w.toNat = (s.pc.toNat + 1) % 256 ∧ t.pc = s.pc + 1)
      ∧ (∃ t, exec (.movwf f) s = .next t ∧ t.pc.toNat = 256 * s.pclath.toNat + s.w.toNat ∧ t.pclath = s.pclath)
      ∧ ∃ t, exec (.addwf f .file) s = .next t ∧ t.pclath = s.pclath
          ∧ t.pc.toNat = 256 * s.pclath.toNat + ((s.pc.toNat + 1) % 256 + s.w.toNat) % 256

/-- R48, general knowledge in the spec (log 24): STATUS as a destination. Bits 4:3 never change; bits 2:0 take the result's
bits for an instruction that lists none of C, DC, Z, and stay for the status rules otherwise; `CLRF STATUS` leaves 000uu1uu.
-/
def Obligations.StatusAsDestination : Prop :=
  (∀ (v : Byte) (s : State), statusByte (writeReg false .status v s) = (v &&& 0xE7) ||| (statusByte s &&& 0x18)
      ∧ statusByte (writeReg true .status v s) = (v &&& 0xE0) ||| (statusByte s &&& 0x1F))
    ∧ ∀ (s : State) (f : FileAddr), fileReg s f = some .status →
        (∃ t, exec (.clrf f) s = .next t ∧ statusByte t = (statusByte s &&& 0x1B) ||| 0x04)
          ∧ (∃ t, exec (.movwf f) s = .next t ∧ statusByte t = (s.w &&& 0xE7) ||| (statusByte s &&& 0x18))
          ∧ ∃ t, exec (.rlf f .file) s = .next t ∧ t.c = s.irp ∧ t.z = s.z ∧ t.dc = s.dc ∧ t.nTO = s.nTO ∧ t.nPD = s.nPD

/-- R39, R45, the layouts general knowledge in the spec (log 6): INTCON reads back what was written, and bit 7 is GIE; PCLATH
keeps five bits, FSR and OPTION_REG all eight, and each write changes no other register. -/
def Obligations.ControlRegisterAccess : Prop :=
  ∀ (masked : Bool) (v : Byte) (s : State),
    (readValue .intcon (writeReg masked .intcon v s) = v ∧ (writeReg masked .intcon v s).gie = v.getLsbD 7
        ∧ { writeReg masked .intcon v s with gie := s.gie, intcon := s.intcon } = s)
      ∧ (readValue .pclath (writeReg masked .pclath v s) = v &&& 0x1F ∧ { writeReg masked .pclath v s with pclath := s.pclath } = s)
      ∧ (readValue .fsr (writeReg masked .fsr v s) = v ∧ { writeReg masked .fsr v s with fsr := s.fsr } = s)
      ∧ (readValue .option (writeReg masked .option v s) = v
          ∧ { writeReg masked .option v s with optionReg := s.optionReg } = s)

/-- R41, R66 (b), R209, with D13 for MOVWF (log 10) and PSA as OPTION_REG<3> (log 9): every write of TMR0 clears the prescaler
exactly when it is assigned to Timer0 (PSA = 0); an instruction that only reads TMR0 leaves it; the value read is a free
value, a new one for each read, whatever that value is (log 8). -/
def Obligations.Timer0Access : Prop :=
  ∀ (i : Instr) (s t : State), exec i s = .next t →
    (regWritten i s = some .tmr0 → t.t0ps = if s.optionReg.getLsbD 3 then s.t0ps else 0)
      ∧ (regRead i s = some .tmr0 → regWritten i s = none → t.t0ps = s.t0ps)
      ∧ (regRead i s = some .tmr0 → t.draws = s.draws + 1)
      ∧ ∀ f, i = .movf f .w → fileReg s f = some .tmr0 → t.w = Config.freeByte s.draws

/-- R43, R66 (a), R224, R225, for an I/O register that the RegMap in use admits (the model's choice, log 12, 13). MOVF f,1
copies the pins into the latch; BSF rewrites all eight latch bits from the pins but the one it names; CLRF, which needs no
value, still reads, and so ends the condition that a read ends. -/
def Obligations.InputOutputRegister : Prop :=
  ∀ (s : State) (f : FileAddr) (a : Nat) (level : Byte), fileReg s f = some (.port a) → Memory.read? s.pins a = some level →
    (∃ t, exec (.movf f .file) s = .next t ∧ Memory.read? t.latch a = some level ∧ t.z = decide (level = 0) ∧ t.pins = s.pins)
      ∧ (∀ b : BitNum, ∃ t v, exec (.bsf f b) s = .next t ∧ Memory.read? t.latch a = some v
          ∧ ∀ n < 8, v.getLsbD n = if n = b.toNat then true else level.getLsbD n)
      ∧ ∃ t, exec (.clrf f) s = .next t ∧ Memory.read? t.latch a = some 0 ∧ a ∉ t.conds
          ∧ ∀ b, b ≠ a → (b ∈ t.conds ↔ b ∈ s.conds)

/-! ### Results of the instructions: each is also the instruction's completion -/

/-- R121, R136: ADDWF and SUBWF, with the 9-bit and 5-bit sums and the unsigned comparisons of the rules. C and DC on addition
and the clear half of Z are general knowledge in the spec (log 25). -/
def Obligations.AddSubtractFile : Prop :=
  Encoded 0x3F00 0x0700 (fun ir => .addwf (fieldF ir) (fieldD ir))
    ∧ Encoded 0x3F00 0x0200 (fun ir => .subwf (fieldF ir) (fieldD ir))
    ∧ ∀ (s : State) (f : FileAddr) (d : Dest) (r : FileReg) (v : Byte), fileReg s f = some r → v = readValue r s →
        exec (.addwf f d) s = .next (stored d true r ((s.w.setWidth 9 + v.setWidth 9).setWidth 8)
            (((afterRead r s).setFlags
              { c := some ((s.w.setWidth 9 + v.setWidth 9).getLsbD 8)
                dc := some (decide (16#5 ≤ (s.w.extractLsb' 0 4).setWidth 5 + (v.extractLsb' 0 4).setWidth 5))
                z := some (decide ((s.w.setWidth 9 + v.setWidth 9).setWidth 8 = 0#8)) }).setPc (s.pc + 1)))
          ∧ exec (.subwf f d) s = .next (stored d true r (v + ~~~s.w + 1)
            (((afterRead r s).setFlags
              { c := some (decide (s.w ≤ v))
                dc := some (decide (s.w.extractLsb' 0 4 ≤ v.extractLsb' 0 4))
                z := some (decide (v = s.w)) }).setPc (s.pc + 1)))

/-- R122, R125, R130, R138: ANDWF, COMF, IORWF, XORWF: the bitwise operation, Z, and no other status bit. The clear half of Z
is general knowledge in the spec (log 25). -/
def Obligations.LogicFile : Prop :=
  Encoded 0x3F00 0x0500 (fun ir => .andwf (fieldF ir) (fieldD ir))
    ∧ Encoded 0x3F00 0x0900 (fun ir => .comf (fieldF ir) (fieldD ir))
    ∧ Encoded 0x3F00 0x0400 (fun ir => .iorwf (fieldF ir) (fieldD ir))
    ∧ Encoded 0x3F00 0x0600 (fun ir => .xorwf (fieldF ir) (fieldD ir))
    ∧ ∀ (s : State) (f : FileAddr) (d : Dest) (r : FileReg) (v : Byte), fileReg s f = some r → v = readValue r s →
        exec (.andwf f d) s = .next (stored d true r (s.w &&& v)
            (((afterRead r s).setFlags { z := some (decide (s.w &&& v = 0#8)) }).setPc (s.pc + 1)))
          ∧ exec (.comf f d) s = .next (stored d true r (0xFF - v)
            (((afterRead r s).setFlags { z := some (decide (v = 0xFF#8)) }).setPc (s.pc + 1)))
          ∧ exec (.iorwf f d) s = .next (stored d true r (s.w ||| v)
            (((afterRead r s).setFlags { z := some (decide (s.w = 0#8 ∧ v = 0#8)) }).setPc (s.pc + 1)))
          ∧ exec (.xorwf f d) s = .next (stored d true r (s.w ^^^ v)
            (((afterRead r s).setFlags { z := some (decide (s.w = v)) }).setPc (s.pc + 1)))

/-- R126, R128, R131: DECF, INCF, MOVF: Z only; the count wraps modulo 256, which the spec derives from the width. The clear
half of Z of DECF and INCF is general knowledge in the spec (log 25). -/
def Obligations.CountMoveFile : Prop :=
  Encoded 0x3F00 0x0300 (fun ir => .decf (fieldF ir) (fieldD ir))
    ∧ Encoded 0x3F00 0x0A00 (fun ir => .incf (fieldF ir) (fieldD ir))
    ∧ Encoded 0x3F00 0x0800 (fun ir => .movf (fieldF ir) (fieldD ir))
    ∧ ∀ (s : State) (f : FileAddr) (d : Dest) (r : FileReg) (v : Byte), fileReg s f = some r → v = readValue r s →
        exec (.decf f d) s = .next (stored d true r (BitVec.ofNat 8 (v.toNat + 255))
            (((afterRead r s).setFlags { z := some (decide (v = 0x01#8)) }).setPc (s.pc + 1)))
          ∧ exec (.incf f d) s = .next (stored d true r (BitVec.ofNat 8 (v.toNat + 1))
            (((afterRead r s).setFlags { z := some (decide (v = 0xFF#8)) }).setPc (s.pc + 1)))
          ∧ exec (.movf f d) s = .next (stored d true r v
            (((afterRead r s).setFlags { z := some (decide (v = 0x00#8)) }).setPc (s.pc + 1)))

/-- R123, R124: CLRF reads f, writes 0x00 to it and then sets Z, so that Z ends 1 whatever register f is; CLRW clears W and sets Z, whatever its don't-care bits, and, as
the spec derives, touches no file register. -/
def Obligations.ClearFileClearW : Prop :=
  Encoded 0x3F80 0x0180 (fun ir => .clrf (fieldF ir)) ∧ Encoded 0x3F80 0x0100 (fun _ => .clrw)
    ∧ (∀ (s : State) (f : FileAddr) (r : FileReg), fileReg s f = some r →
        exec (.clrf f) s = .next { writeReg true r 0x00 ((afterRead r s).setPc (s.pc + 1)) with z := true })
    ∧ ∀ s : State, exec .clrw s = .next { s with w := 0x00, z := true, pc := s.pc + 1 }

/-- R132, R137: MOVWF stores W, after a read whose value it does not use; SWAPF exchanges the digits; neither writes a status
bit. -/
def Obligations.MoveToFileSwap : Prop :=
  Encoded 0x3F80 0x0080 (fun ir => .movwf (fieldF ir)) ∧ Encoded 0x3F00 0x0E00 (fun ir => .swapf (fieldF ir) (fieldD ir))
    ∧ ∀ (s : State) (f : FileAddr) (d : Dest) (r : FileReg) (v : Byte), fileReg s f = some r → v = readValue r s →
        exec (.movwf f) s = .next (writeReg false r s.w ((afterRead r s).setPc (s.pc + 1)))
          ∧ ∃ res : Byte, (∀ n < 4, res.getLsbD n = v.getLsbD (n + 4) ∧ res.getLsbD (n + 4) = v.getLsbD n)
              ∧ exec (.swapf f d) s = .next (stored d false r res ((afterRead r s).setPc (s.pc + 1)))

/-- R134, R135 (RRF's direction the spec derives as RLF's mirror image): RLF and RRF rotate the nine bits C:f by one; C only.
-/
def Obligations.RotateFile : Prop :=
  Encoded 0x3F00 0x0D00 (fun ir => .rlf (fieldF ir) (fieldD ir))
    ∧ Encoded 0x3F00 0x0C00 (fun ir => .rrf (fieldF ir) (fieldD ir))
    ∧ ∀ (s : State) (f : FileAddr) (d : Dest) (r : FileReg) (v : Byte), fileReg s f = some r → v = readValue r s →
        (∃ res : Byte, res.getLsbD 0 = s.c ∧ (∀ n < 7, res.getLsbD (n + 1) = v.getLsbD n)
            ∧ exec (.rlf f d) s = .next (stored d true r res
                (((afterRead r s).setFlags { c := some (v.getLsbD 7) }).setPc (s.pc + 1))))
          ∧ ∃ res : Byte, res.getLsbD 7 = s.c ∧ (∀ n < 7, res.getLsbD n = v.getLsbD (n + 1))
              ∧ exec (.rrf f d) s = .next (stored d true r res
                  (((afterRead r s).setFlags { c := some (v.getLsbD 0) }).setPc (s.pc + 1)))

/-- R127, R129, R230: DECFSZ and INCFSZ write no status bit, and skip exactly when the value read is 0x01, or 0xFF; one
cycle, or two when they skip. That they also take two when PCL is written without a skip is no sentence of R127, R129 or R230,
whose second row gives one cycle where the next instruction is executed: it rests on 90_conflicts.md C14, whose resolution gives
two cycles to every byte- or bit-oriented instruction that writes the program counter's file register, R120 (f) and R49. That the skip is the last assignment
of pc where PCL is written too is U21's reading (log 23). -/
def Obligations.CountSkipFile : Prop :=
  Encoded 0x3F00 0x0B00 (fun ir => .decfsz (fieldF ir) (fieldD ir))
    ∧ Encoded 0x3F00 0x0F00 (fun ir => .incfsz (fieldF ir) (fieldD ir))
    ∧ ∀ (s : State) (f : FileAddr) (d : Dest) (r : FileReg) (v : Byte) (u : State),
        fileReg s f = some r → v = readValue r s → u = (afterRead r s).setPc (s.pc + 1) →
        exec (.decfsz f d) s = .next (if v = 0x01 then (stored d false r (v - 1) u).setPc (s.pc + 2) else stored d false r (v - 1) u)
          ∧ exec (.incfsz f d) s = .next (if v = 0xFF then (stored d false r (v + 1) u).setPc (s.pc + 2) else stored d false r (v + 1) u)
          ∧ cycles (.decfsz f d) s = (if v = 0x01 ∨ (d = .file ∧ r = .pcl) then 2 else 1)
          ∧ cycles (.incfsz f d) s = (if v = 0xFF ∨ (d = .file ∧ r = .pcl) then 2 else 1)

/-- R151, R152: BCF and BSF read all eight bits and write all eight back, bit b forced; no status bit; one cycle. That they take two
where the register written is PCL is R230's inference from R229's general sentence (derived there, 90_conflicts.md C14; R151 has it
for BCF, R152 not for BSF), and it is counted even where the byte written leads to the next address. -/
def Obligations.BitClearBitSet : Prop :=
  Encoded 0x3C00 0x1000 (fun ir => .bcf (fieldF ir) (fieldB ir)) ∧ Encoded 0x3C00 0x1400 (fun ir => .bsf (fieldF ir) (fieldB ir))
    ∧ ∀ (s : State) (f : FileAddr) (b : BitNum) (r : FileReg) (v : Byte), fileReg s f = some r → v = readValue r s →
        (∃ res : Byte, (∀ n < 8, res.getLsbD n = if n = b.toNat then false else v.getLsbD n)
            ∧ exec (.bcf f b) s = .next (writeReg false r res ((afterRead r s).setPc (s.pc + 1))))
          ∧ (∃ res : Byte, (∀ n < 8, res.getLsbD n = if n = b.toNat then true else v.getLsbD n)
              ∧ exec (.bsf f b) s = .next (writeReg false r res ((afterRead r s).setPc (s.pc + 1))))
          ∧ cycles (.bcf f b) s = (if r = .pcl then 2 else 1) ∧ cycles (.bsf f b) s = (if r = .pcl then 2 else 1)

/-- R153, R154: BTFSC and BTFSS read f, never write it, and skip when bit b is 0, or 1; b = 7 is legal in both. Two cycles when
they skip. -/
def Obligations.BitTestSkip : Prop :=
  Encoded 0x3C00 0x1800 (fun ir => .btfsc (fieldF ir) (fieldB ir))
    ∧ Encoded 0x3C00 0x1C00 (fun ir => .btfss (fieldF ir) (fieldB ir))
    ∧ ∀ (s : State) (f : FileAddr) (b : BitNum) (r : FileReg) (v : Byte), fileReg s f = some r → v = readValue r s →
        exec (.btfsc f b) s = .next ((afterRead r s).setPc (if v.getLsbD b.toNat then s.pc + 1 else s.pc + 2))
          ∧ exec (.btfss f b) s = .next ((afterRead r s).setPc (if v.getLsbD b.toNat then s.pc + 2 else s.pc + 1))
          ∧ cycles (.btfsc f b) s = (if v.getLsbD b.toNat then 1 else 2)
          ∧ cycles (.btfss f b) s = (if v.getLsbD b.toNat then 2 else 1)

/-- R161, R172: ADDLW and SUBLW; k is the minuend of SUBLW, and the flags come from the old W. C and DC on addition and the
clear half of Z are general knowledge in the spec (log 25). -/
def Obligations.AddSubtractLiteral : Prop :=
  Encoded 0x3E00 0x3E00 (fun ir => .addlw (fieldK8 ir)) ∧ Encoded 0x3E00 0x3C00 (fun ir => .sublw (fieldK8 ir))
    ∧ ∀ (s : State) (k : Byte),
        exec (.addlw k) s = .next { s with
            w := (s.w.setWidth 9 + k.setWidth 9).setWidth 8
            c := (s.w.setWidth 9 + k.setWidth 9).getLsbD 8
            dc := decide (16#5 ≤ (s.w.extractLsb' 0 4).setWidth 5 + (k.extractLsb' 0 4).setWidth 5)
            z := decide ((s.w.setWidth 9 + k.setWidth 9).setWidth 8 = 0#8)
            pc := s.pc + 1 }
          ∧ exec (.sublw k) s = .next { s with
            w := k + ~~~s.w + 1
            c := decide (s.w ≤ k)
            dc := decide (s.w.extractLsb' 0 4 ≤ k.extractLsb' 0 4)
            z := decide (s.w = k)
            pc := s.pc + 1 }

/-- R162, R166, R167, R173: ANDLW, IORLW, XORLW write W and Z; MOVLW writes W and no status bit. The clear half of Z is
general knowledge in the spec (log 25). -/
def Obligations.LogicMoveLiteral : Prop :=
  Encoded 0x3F00 0x3900 (fun ir => .andlw (fieldK8 ir)) ∧ Encoded 0x3F00 0x3800 (fun ir => .iorlw (fieldK8 ir))
    ∧ Encoded 0x3F00 0x3A00 (fun ir => .xorlw (fieldK8 ir)) ∧ Encoded 0x3C00 0x3000 (fun ir => .movlw (fieldK8 ir))
    ∧ ∀ (s : State) (k : Byte),
        exec (.andlw k) s = .next { s with w := s.w &&& k, z := decide (s.w &&& k = 0#8), pc := s.pc + 1 }
          ∧ exec (.iorlw k) s = .next { s with w := s.w ||| k, z := decide (s.w = 0#8 ∧ k = 0#8), pc := s.pc + 1 }
          ∧ exec (.xorlw k) s = .next { s with w := s.w ^^^ k, z := decide (s.w = k), pc := s.pc + 1 }
          ∧ exec (.movlw k) s = .next { s with w := k, pc := s.pc + 1 }

/-- R165: GOTO goes to k in the page PCLATH<4:3> selects, and changes nothing else; two cycles. -/
def Obligations.GotoInPage : Prop :=
  Encoded 0x3800 0x2800 (fun ir => .goto (fieldK11 ir))
    ∧ ∀ (s : State) (k : PageAddr), ∃ target : ProgAddr, target.toNat = 2048 * (s.pclath.toNat / 8) + k.toNat
        ∧ exec (.goto k) s = .next { s with pc := target } ∧ cycles (.goto k) s = 2

/-- R163: CALL pushes the address after it and goes to k in the page PCLATH<4:3> selects; two cycles. It refuses on a full stack,
which is the spec's own decision (log 17). -/
def Obligations.CallSubroutine : Prop :=
  Encoded 0x3800 0x2000 (fun ir => .call (fieldK11 ir))
    ∧ ∀ (s : State) (k : PageAddr), ∃ target : ProgAddr, target.toNat = 2048 * (s.pclath.toNat / 8) + k.toNat
        ∧ (s.stk.length < s.params.stackDepth →
            exec (.call k) s = .next { s with stk := (s.pc + 1) :: s.stk, pc := target })
        ∧ (s.params.stackDepth ≤ s.stk.length → exec (.call k) s = .refused .stackOverflow)
        ∧ cycles (.call k) s = 2

/-- R168, R169, R170: the returns pop all 13 bits of pc; RETFIE also sets GIE, RETLW also loads W; two cycles. Each refuses on
an empty stack, which is the spec's own decision D7 (log 17). -/
def Obligations.Returns : Prop :=
  Encoded 0x3FFF 0x0009 (fun _ => .retfie) ∧ Encoded 0x3C00 0x3400 (fun ir => .retlw (fieldK8 ir))
    ∧ Encoded 0x3FFF 0x0008 (fun _ => .ret)
    ∧ ∀ (s : State) (k : Byte),
        (∀ (a : ProgAddr) (rest : List ProgAddr), s.stk = a :: rest →
          exec .ret s = .next { s with pc := a, stk := rest }
            ∧ exec (.retlw k) s = .next { s with pc := a, stk := rest, w := k }
            ∧ exec .retfie s = .next { s with pc := a, stk := rest, gie := true })
          ∧ (s.stk = [] → exec .ret s = .refused .stackUnderflow ∧ exec (.retlw k) s = .refused .stackUnderflow
              ∧ exec .retfie s = .refused .stackUnderflow)
          ∧ cycles .ret s = 2 ∧ cycles (.retlw k) s = 2 ∧ cycles .retfie s = 2

/-- R133, R164: NOP advances pc and no more; CLRWDT clears the Watchdog Timer and its prescaler and sets nTO and nPD; one cycle
each. -/
def Obligations.NopAndClrwdt : Prop :=
  Encoded 0x3F9F 0x0000 (fun _ => .nop) ∧ Encoded 0x3FFF 0x0064 (fun _ => .clrwdt)
    ∧ ∀ s : State,
        exec .nop s = .next { s with pc := s.pc + 1 }
          ∧ exec .clrwdt s = .next { s with wdt := 0, wdtps := 0, nTO := true, nPD := true, pc := s.pc + 1 }
          ∧ cycles .nop s = 1 ∧ cycles .clrwdt s = 1

/-- R171: SLEEP clears the Watchdog Timer and its prescaler, sets nTO, clears nPD and enters Sleep mode; one cycle. That pc moves
on to the next instruction is the spec's decision D11 (log 19). -/
def Obligations.SleepInstruction : Prop :=
  Encoded 0x3FFF 0x0063 (fun _ => .sleep)
    ∧ ∀ s : State,
        exec .sleep s = .next { s with wdt := 0, wdtps := 0, nTO := true, nPD := false, sleeping := true, pc := s.pc + 1 }
          ∧ cycles .sleep s = 1

/-- R191, R210: every instruction, in any state, has a next state wherever RegMap defines the register it names, CALL finds
room on the return stack, and a return finds an entry (the spec's decisions D3 and D7; log 11, 17). -/
def Obligations.EveryInstructionCompletes : Prop :=
  ∀ (i : Instr) (s : State), (∀ f, i.fileNamed = some f → fileReg s f ≠ none) →
    (i.pushes = true → s.stk.length < s.params.stackDepth) → (i.pops = true → s.stk ≠ []) →
    ∃ t, exec i s = .next t

/-- R192, with the spec's decisions D3 and D7 (log 11, 17): an instruction refuses exactly where the closed list says, and
with that reason. -/
def Obligations.RefusalsAreTheClosedList : Prop :=
  ∀ (i : Instr) (s : State) (reason : Refusal),
    exec i s = .refused reason ↔
      (reason = .unmodelledRegister ∧ ∃ f, i.fileNamed = some f ∧ fileReg s f = none)
        ∨ (reason = .stackOverflow ∧ i.pushes = true ∧ s.params.stackDepth ≤ s.stk.length)
        ∨ (reason = .stackUnderflow ∧ i.pops = true ∧ s.stk = [])

/-! ### Frames -/

/-- R21, R30, R36: W is written by the instructions R21 lists and no others; C, DC and Z by those R36 lists, and else only
where STATUS is the file register written, by an instruction that lists none of the three (R48, log 24); nTO and nPD by CLRWDT
and SLEEP only; IRP, RP1 and RP0 only where STATUS is written. -/
def Obligations.FrameOfWAndStatus : Prop :=
  ∀ (i : Instr) (s t : State), exec i s = .next t →
    (i.writesW = false → t.w = s.w)
      ∧ (i.listsCarry = false → regWritten i s ≠ some .status → t.c = s.c)
      ∧ (i.listsDigitCarry = false → regWritten i s ≠ some .status → t.dc = s.dc)
      ∧ (i.listsZero = false → regWritten i s ≠ some .status → t.z = s.z)
      ∧ (i.listsCarry = true ∨ i.listsZero = true →
          (i.listsCarry = false → t.c = s.c) ∧ (i.listsDigitCarry = false → t.dc = s.dc) ∧ (i.listsZero = false → t.z = s.z))
      ∧ (regWritten i s ≠ some .status → t.irp = s.irp ∧ t.rp = s.rp)
      ∧ (i ≠ .clrwdt → i ≠ .sleep → t.nTO = s.nTO ∧ t.nPD = s.nPD)

/-- R38, R39, R40, R42, R45 (the register layouts log 6): each special register changes only where it is the file register
written, but for GIE under RETFIE, the stack under CALL and the returns, the Watchdog counts under CLRWDT and SLEEP, and Sleep
mode under SLEEP; the parameters, the pins, the step inputs and the power-on epoch never change; a draw is used up, and a
condition ends, only where TMR0 or an I/O register is read (log 8, 12). -/
def Obligations.FrameOfSpecialRegisters : Prop :=
  ∀ (i : Instr) (s t : State), exec i s = .next t →
    (regWritten i s ≠ some .pclath → t.pclath = s.pclath)
      ∧ (regWritten i s ≠ some .fsr → t.fsr = s.fsr)
      ∧ (regWritten i s ≠ some .option → t.optionReg = s.optionReg)
      ∧ (regWritten i s ≠ some .intcon → t.intcon = s.intcon ∧ (i ≠ .retfie → t.gie = s.gie))
      ∧ (regWritten i s ≠ some .tmr0 → t.tmr0 = s.tmr0 ∧ t.t0ps = s.t0ps)
      ∧ (i.pushes = false → i.pops = false → t.stk = s.stk)
      ∧ (i ≠ .clrwdt → i ≠ .sleep → t.wdt = s.wdt ∧ t.wdtps = s.wdtps)
      ∧ (i ≠ .sleep → t.sleeping = s.sleeping)
      ∧ (t.params = s.params ∧ t.pins = s.pins ∧ t.inputs = s.inputs ∧ t.epoch = s.epoch)
      ∧ (regRead i s ≠ some .tmr0 → (∀ a, regRead i s ≠ some (.port a)) → t.draws = s.draws)
      ∧ ((∀ a, regRead i s ≠ some (.port a)) → t.conds = s.conds)

/-- R60, R64, R65: of the storage registers only the one the instruction writes can change, and none when the form stores
nothing; the same for the data latches (log 12); program memory never changes. The register written is the one RegMap gives
for the f the instruction names, in the state it starts from. -/
def Obligations.FrameOfMemory : Prop :=
  ∀ (i : Instr) (s t : State), exec i s = .next t →
    (∀ a, regWritten i s ≠ some (.storage a) → storageRead t a = storageRead s a)
      ∧ (∀ a, regWritten i s ≠ some (.port a) → Memory.read? t.latch a = Memory.read? s.latch a)
      ∧ ∀ a, progRead t a = progRead s a

/-- R24, R25, R174: an instruction that neither transfers control nor writes PCL goes to pc + 1, or to pc + 2 where it is one
of the four skip instructions and its test is true; a true test gives pc + 2 whatever the instruction writes (U21's reading,
log 23). The 13-bit wrap is the spec's D2 (log 28). -/
def Obligations.NextAddress : Prop :=
  ∀ (i : Instr) (s t : State), exec i s = .next t →
    (i.skips = true → testHolds i s = true → t.pc = s.pc + 2)
      ∧ (i.transfers = false → regWritten i s ≠ some .pcl → testHolds i s = false → t.pc = s.pc + 1)
      ∧ (testHolds i s = true → i.skips = true)

/-- R229: an instruction takes one cycle of four oscillator periods, unless a conditional test is true or the program counter
is changed as a result of it, and then two. That a write of PCL takes two is R230's inference from that sentence (derived
there for the instructions of its first row; for DECFSZ and INCFSZ without a skip by 90_conflicts.md C14, R120 (f) and R49);
the statement counts a transfer and a write of PCL as changing pc even where the target happens to
be the next address. -/
def Obligations.TwoCyclesWhenPcChanges : Prop :=
  ∀ (i : Instr) (s t : State), exec i s = .next t →
    (t.pc ≠ s.pc + 1 ∨ testHolds i s = true ∨ i.transfers = true ∨ regWritten i s = some .pcl → cycles i s = 2)
      ∧ (testHolds i s = false → i.transfers = false → regWritten i s ≠ some .pcl → cycles i s = 1)
      ∧ oscPeriods i s = 4 * cycles i s

/-! ### Operations over several instructions -/

/-- R31, R32, R33, where the spec says the subtraction's carries are derived and the addition's general knowledge (log 25): C
and DC of the model are the carries out of bit 7 and bit 3 of the 9-bit and 5-bit sums, for subtraction of the sum with the
complement plus one. -/
def Obligations.CarriesAreAdderCarries : Prop :=
  ∀ a b : Byte,
    carryAdd a b = (a.setWidth 9 + b.setWidth 9).getLsbD 8
      ∧ digitCarryAdd a b = ((lowDigit a).setWidth 5 + (lowDigit b).setWidth 5).getLsbD 4
      ∧ carrySub a b = (a.setWidth 9 + (~~~b).setWidth 9 + 1).getLsbD 8
      ∧ digitCarrySub a b = ((lowDigit a).setWidth 5 + (lowDigit (~~~b)).setWidth 5 + 1).getLsbD 4

/-- R134, R135, R137: on a storage register, RRF after RLF restores the register and C, and so does RLF after RRF; SWAPF twice
restores the register. -/
def Obligations.RotationsAndSwapsUndo : Prop :=
  ∀ (s t u : State) (f : FileAddr) (a : Nat), fileReg s f = some (.storage a) →
    (exec (.rlf f .file) s = .next t → exec (.rrf f .file) t = .next u → storageRead u a = storageRead s a ∧ u.c = s.c)
      ∧ (exec (.rrf f .file) s = .next t → exec (.rlf f .file) t = .next u → storageRead u a = storageRead s a ∧ u.c = s.c)
      ∧ (exec (.swapf f .file) s = .next t → exec (.swapf f .file) t = .next u → storageRead u a = storageRead s a)

/-- R163, R170: a RETURN right after a CALL goes to the instruction after the CALL and leaves everything else as it was. -/
def Obligations.CallThenReturn : Prop :=
  ∀ (s t : State) (k : PageAddr), exec (.call k) s = .next t → exec .ret t = .next { s with pc := s.pc + 1 }

/-- R198, R199, R200, the entry being the spec's decision D10 (log 16): after interrupt entry, RETFIE restores the interrupted
state exactly; RETURN restores all but GIE, which stays 0. -/
def Obligations.InterruptThenReturn : Prop :=
  ∀ s t : State, s.gie = true → takeInterrupt s = .ok t →
    exec .retfie t = .next s ∧ exec .ret t = .next { s with gie := false }

/-! ### RegMap as an argument -/

/-- R63, R65, for any RegMap (the spec's decision D3; the form of the argument log 34): an instruction that names f first performs
the one read of f, and refuses when the read does. When it writes no file register it then has a next state that differs from the
state after the read in W, the status bits and pc alone. When it writes f it performs the one write of f, in the state after the
read with its status bits written and pc moved on, refuses when the write does, and is otherwise done, but for the skip of DECFSZ
and INCFSZ and for CLRF, which writes no status bit before its write of 0x00 and sets Z after it (R123). That the skip is the last
assignment of pc, also over a pc that the RegMap's write assigns, is U21's reading (DEDUCED, log 23). -/
def Obligations.OneReadThenOneWrite : Prop :=
  ∀ (m : RegMap) (inp : StepInput) (i : Instr) (s : State) (f : FileAddr), i.fileNamed = some f →
    (∀ reason, m.read f inp s = .error reason → execOn m inp i s = .refused reason)
      ∧ ∀ (v : Byte) (t : State), m.read f inp s = .ok (v, t) →
          (i.fileWritten = none → ∃ u, execOn m inp i s = .next u
              ∧ u = { t with w := u.w, c := u.c, dc := u.dc, z := u.z, pc := u.pc })
            ∧ (i.fileWritten = some f → ∃ (result : Byte) (u : State), u = { t with c := u.c, dc := u.dc, z := u.z, pc := t.pc + 1 }
                ∧ (i = .clrf f → result = 0x00 ∧ u = { t with pc := t.pc + 1 })
                ∧ (∀ reason, m.write (i.listsCarry || i.listsZero) f result u = .error reason → execOn m inp i s = .refused reason)
                ∧ ∀ x, m.write (i.listsCarry || i.listsZero) f result u = .ok x →
                    execOn m inp i s = .next (if i.skips && zeroFlag result then { x with pc := s.pc + 2 }
                      else if i = .clrf f then { x with z := true } else x))

/-- R5, R52, R63, decision D3: RegMap is an argument (its form log 34, what it may write log 35). At the default RegMap the
machine with that argument is `exec`, and at the default platform `step`; a step where no event comes first, no event being
judged by the family's formula of IntReq (PRESUMED, log 15), runs the decoded instruction under the RegMap, on the step's input
(log 14); and an instruction depends on RegMap only through the read of the file register it names, at the state it starts from,
and the writes of the file register it writes. -/
def Obligations.RegMapIsAnArgument : Prop :=
  (∀ (inp : StepInput) (i : Instr) (s : State), execOn defaultRegMap inp i s = exec i s)
    ∧ (∀ s : State, stepOn defaultPlatform s = step s)
    ∧ (∀ (m : RegMap) (s : State) (i : Instr), NoEvent s → decode (progRead s s.pc) = some i →
        stepOn { defaultPlatform with regMap := m } s = execOn m (currentInput s) i (takeInput s))
    ∧ ∀ (m n : RegMap) (inp : StepInput) (i : Instr) (s : State),
        (∀ f, i.fileNamed = some f → m.read f inp s = n.read f inp s) →
        (∀ f masked v u, i.fileWritten = some f → m.write masked f v u = n.write masked f v u) →
        execOn m inp i s = execOn n inp i s

/-! ### The step -/

/-- R43, R44, R195 as the model gives them a form (the queue log 14, pins log 13, conditions log 12): taking in the step's input. The
input is the oldest of the queue and leaves it. Its flags are set in INTCON<2:0>, none is cleared, and INTCON<6:3> stays. The last
level it gives for the pins of a register is the one read there, and other pins keep theirs. The conditions it names are pending
beside those that were. Nothing else changes, and with no input queued nothing at all. -/
def Obligations.StepInputTakenIn : Prop :=
  ∀ s : State,
    (∀ inp rest, s.inputs = inp :: rest → currentInput s = inp ∧ (takeInput s).inputs = rest)
      ∧ (s.inputs = [] → currentInput s = {} ∧ takeInput s = s)
      ∧ (∀ n < 3, (takeInput s).intcon.getLsbD n = (s.intcon.getLsbD n || (currentInput s).flags.getLsbD n))
      ∧ (takeInput s).intcon.extractLsb' 3 4 = s.intcon.extractLsb' 3 4
      ∧ (∀ a level, Memory.read? (currentInput s).pins.reverse a = some level → readValue (.port a) (takeInput s) = level)
      ∧ (∀ a, Memory.read? (currentInput s).pins.reverse a = none → Memory.read? (takeInput s).pins a = Memory.read? s.pins a)
      ∧ (∀ a, a ∈ (takeInput s).conds ↔ a ∈ s.conds ∨ a ∈ (currentInput s).conds)
      ∧ { takeInput s with intcon := s.intcon, pins := s.pins, conds := s.conds, inputs := s.inputs } = s

/-- R52: where no event comes first, a step is exec of the decoded instruction at the state with the step's input taken in
(the model's queue, log 14; what that changes is StepInputTakenIn), which is the state itself when no input is queued. No event:
awake, no reset, no Watchdog time-out, and not both GIE and a requesting source in the family's formula (log 15). -/
def Obligations.StepRunsTheDecodedInstruction : Prop :=
  ∀ (s : State) (i : Instr), NoEvent s → decode (progRead s s.pc) = some i →
    step s = exec i (takeInput s) ∧ (s.inputs = [] → step s = exec i s)

/-- R52, R104: executing an unassigned word refuses as ReservedOpcode, the spec's own decision D8 (log 18). No event
comes first (the step's input log 14, IntReq log 15). -/
def Obligations.StepRefusesUnassignedWords : Prop :=
  ∀ s : State, NoEvent s → decode (progRead s s.pc) = none → step s = .refused .reservedOpcode

/-- R196, R198, the spec's decision D10 with the family's vector and formula (log 15, 16). The default IntReq is T0IE and T0IF, or
INTE and INTF, or RBIE and RBIF, or PEIE and some enabled peripheral flag, on the bits of INTCON. Interrupt entry, where GIE = 1 and a
source requests once the step's flags are set, pushes pc, clears GIE, goes to INT_VECTOR, and changes nothing else but that the
step's input is taken in (the model's queue, log 14; StepInputTakenIn); on a full stack it refuses (D7, log 17). The last clause says
the same for any platform, whose IntReq is an argument (log 34): entry exactly where GIE = 1 and that IntReq holds of the step's
input, else the decoded instruction under the platform's RegMap. -/
def Obligations.InterruptEntry : Prop :=
  (∀ (inp : StepInput) (s : State), intReq inp s = true ↔
      (s.intcon.getLsbD 5 = true ∧ s.intcon.getLsbD 2 = true) ∨ (s.intcon.getLsbD 4 = true ∧ s.intcon.getLsbD 1 = true)
        ∨ (s.intcon.getLsbD 3 = true ∧ s.intcon.getLsbD 0 = true) ∨ (s.intcon.getLsbD 6 = true ∧ inp.peripheral = true))
    ∧ (∀ s : State, s.sleeping = false → (currentInput s).reset = none → ¬ TimeOutRaised s →
        s.gie = true → InterruptRequested s →
        step s = (if s.stk.length < s.params.stackDepth then
            .next { takeInput s with stk := s.pc :: s.stk, gie := false, pc := s.params.intVector }
          else .refused .stackOverflow))
    ∧ ∀ (p : Platform) (s : State), s.sleeping = false → (currentInput s).reset = none → ¬ TimeOutRaised s →
        (s.gie = true → p.intReq (currentInput s) (takeInput s) = true →
            stepOn p s = (if s.stk.length < s.params.stackDepth then
                .next { takeInput s with stk := s.pc :: s.stk, gie := false, pc := s.params.intVector }
              else .refused .stackOverflow))
          ∧ ∀ i, ¬ (s.gie = true ∧ p.intReq (currentInput s) (takeInput s) = true) → decode (progRead s s.pc) = some i →
              stepOn p s = execOn p.regMap (currentInput s) i (takeInput s)

/-- R197 (d), R206, the spec's decisions D11 and D19 (log 19), and where a Watchdog wake-up finds a request pending R198, D10: the step while sleeping, by what the step's input raises: a reset
before all, then a Watchdog time-out (where enabled) even beside an interrupt event, then an interrupt event, else the machine
stays asleep. That the interrupt event is the input's wake alone, so that the machine wakes with wake true and stays asleep with
wake false whatever the enables and flags of INTCON hold, is a DESIGN CHOICE beside R207 (3) (log 38). Each step takes its input in (the model's queue, log 14; StepInputTakenIn), also where R206 says 'state unchanged'.
A wake-up at an unassigned word refuses (D8, log 18). That interrupt entry is not suppressed after a Watchdog wake-up, as it is after
an interrupt event, is DEDUCED (log 19); the request is the family's formula (log 15), the entry pushes pc, clears GIE and goes to
INT_VECTOR (log 16), and on a full stack it refuses as StackOverflow (D7, log 17). The second part is R206 for any platform, whose
WakeEvent and IntReq are arguments (log 34), and whose answer is followed also where WDT_ENABLED is false (log 36). -/
def Obligations.SleepingStep : Prop :=
  (∀ s : State, s.sleeping = true →
    ((currentInput s).reset = none → ¬ TimeOutRaised s → (currentInput s).wake = false →
        step s = .next (takeInput s) ∧ (s.inputs = [] → step s = .next s))
      ∧ ((currentInput s).reset = none → ¬ TimeOutRaised s → (currentInput s).wake = true →
          (∀ i, decode (progRead s s.pc) = some i → step s = exec i { takeInput s with sleeping := false })
            ∧ (decode (progRead s s.pc) = none → step s = .refused .reservedOpcode))
      ∧ ((currentInput s).reset = none → TimeOutRaised s → ¬ (s.gie = true ∧ InterruptRequested s) →
          (∀ i, decode (progRead s s.pc) = some i → step s = exec i { takeInput s with sleeping := false, nTO := false })
            ∧ (decode (progRead s s.pc) = none → step s = .refused .reservedOpcode))
      ∧ ((currentInput s).reset = none → TimeOutRaised s → s.gie = true → InterruptRequested s →
          step s = (if s.stk.length < s.params.stackDepth then
              .next { takeInput s with
                sleeping := false, nTO := false, stk := s.pc :: s.stk, gie := false, pc := s.params.intVector }
            else .refused .stackOverflow))
      ∧ ∀ kind, (currentInput s).reset = some kind → step s = .next (applyReset kind (takeInput s)))
    ∧ ∀ (p : Platform) (s : State), s.sleeping = true →
        (p.wakeEvent (currentInput s) (takeInput s) = .none → stepOn p s = .next (takeInput s))
          ∧ (∀ i, p.wakeEvent (currentInput s) (takeInput s) = .interrupt → decode (progRead s s.pc) = some i →
              stepOn p s = execOn p.regMap (currentInput s) i { takeInput s with sleeping := false })
          ∧ (∀ u : State, u = { takeInput s with sleeping := false, nTO := false } →
              p.wakeEvent (currentInput s) (takeInput s) = .watchdog →
              (s.gie = true → p.intReq (currentInput s) u = true →
                  stepOn p s = (if s.stk.length < s.params.stackDepth then
                      .next { u with stk := s.pc :: s.stk, gie := false, pc := s.params.intVector }
                    else .refused .stackOverflow))
                ∧ ∀ i, ¬ (s.gie = true ∧ p.intReq (currentInput s) u = true) → decode (progRead s s.pc) = some i →
                    stepOn p s = execOn p.regMap (currentInput s) i u)
          ∧ ∀ kind, p.wakeEvent (currentInput s) (takeInput s) = .reset kind → stepOn p s = .next (applyReset kind (takeInput s))

/-- R208, R221, general knowledge and decisions D9, D12 in the spec (log 20, 21): a reset raised at a boundary, awake or
asleep, and a Watchdog time-out of a running processor, restart execution with the special registers at their reset values; W,
C, DC, Z, FSR and storage are kept by all but a power-on reset; nTO and nPD tell the causes apart. That a brown-out leaves
nTO, nPD = 1, 1 is DEDUCED from R220 (log 21). That resets and time-outs are raised by the step's input is log 14; what a reset
does to latches, pins and conditions (log 33) is not here. -/
def Obligations.ResetStep : Prop :=
  ∀ s : State,
    (∀ kind, (currentInput s).reset = some kind → ∃ t, step s = .next t ∧ Restarted s t
        ∧ (kind ≠ .powerOn → Kept s t)
        ∧ (kind = .mclr → s.sleeping = false → t.nTO = s.nTO ∧ t.nPD = s.nPD)
        ∧ (kind = .mclr → s.sleeping = true → t.nTO = true ∧ t.nPD = false)
        ∧ (kind = .powerOn ∨ kind = .brownOut → t.nTO = true ∧ t.nPD = true))
      ∧ ((currentInput s).reset = none → TimeOutRaised s → s.sleeping = false →
          ∃ t, step s = .next t ∧ Restarted s t ∧ Kept s t ∧ t.nTO = false ∧ t.nPD = true)

/-- R51, R220, decision D9 and general knowledge in the spec (log 4): the values the spec gives the machine after power-on
reset: awake, interrupts masked, an empty stack, pc at the reset vector, and the family's values the spec carries. The
registers it leaves unknown (log 3) are not here. That no step input is queued is no value of the spec: it concerns the model's
own queue (DESIGN CHOICE, log 14). -/
def Obligations.ResetState : Prop :=
  State.reset.pc = State.reset.params.resetVector ∧ State.reset.pc = 0x0000 ∧ State.reset.stk = []
    ∧ State.reset.sleeping = false ∧ State.reset.gie = false ∧ State.reset.pclath = 0 ∧ State.reset.nTO = true
    ∧ State.reset.nPD = true ∧ State.reset.irp = false ∧ State.reset.rp = 0 ∧ State.reset.optionReg = 0xFF
    ∧ State.reset.intcon.extractLsb' 1 6 = 0#6 ∧ State.reset.inputs = []

/-- The invariant (R28, R60, R61; the canonical form of the memories is the model's, log 1, 7, and so are the queued inputs and the
conditions, log 12, 14) holds after reset. -/
def Obligations.InvariantAtReset : Prop := StateInv State.reset

/-- R28, R60, R61, R64: every step keeps the invariant: the memories in canonical form within their address spaces (the
model's form, log 1, 7), the return stack within its depth, no condition listed twice (log 12), and the pins named by queued inputs
within the data space (log 14). -/
def Obligations.StepKeepsTheInvariant : Prop := ∀ s t : State, StateInv s → step s = .next t → StateInv t

/-- R60, R75, decision D1 (log 1): no step changes the program or the parameters, and each step uses up one step input (log
14). -/
def Obligations.ProgramIsFixed : Prop :=
  ∀ s t : State, step s = .next t → t.prog = s.prog ∧ t.params = s.params ∧ t.inputs = s.inputs.tail

/-- R25, R52, R60, with decision D14 on the skipped word (log 27): a step reads no word of program memory but the one at pc.
In particular the word a skip passes over, an unassigned word, a CALL, a SLEEP, has no effect whatever it holds: loading
another word there changes nothing but that word. -/
def Obligations.StepReadsOnlyTheFetchedWord : Prop :=
  ∀ (s : State) (a : ProgAddr) (v : Word), a ≠ s.pc → step (loadWord s a v) = mapNext (fun t => loadWord t a v) (step s)

/-- R42, R193, R206 (D11, log 19): the machine enters Sleep mode only by executing SLEEP, and leaves it only at a wake-up
event: a reset, a Watchdog time-out where it is enabled, or an interrupt event that the step's input raises (log 14). That
this event is the input's wake alone, and no enabled flag of INTCON, is a DESIGN CHOICE beside R207 (3) (log 38). -/
def Obligations.SleepModeOnlyBySleep : Prop :=
  ∀ s t : State, step s = .next t →
    (s.sleeping = false → t.sleeping = true → decode (progRead s s.pc) = some .sleep)
      ∧ (s.sleeping = true → t.sleeping = false → (currentInput s).reset ≠ none ∨ TimeOutRaised s ∨ (currentInput s).wake = true)

/-- R39, R198, R200 (D10, log 16; resets log 21): GIE becomes 1 only by RETFIE or a write of INTCON; it becomes 0 only by a
reset, a Watchdog reset (a time-out of a running processor), interrupt entry, or a write of INTCON. Resets and time-outs are raised
by the step's input (log 14). -/
def Obligations.GlobalInterruptEnableChanges : Prop :=
  ∀ s t : State, step s = .next t →
    (s.gie = false → t.gie = true → ∃ u i, atBoundary s = .run u ∧ decode (progRead u u.pc) = some i ∧ exec i u = .next t
        ∧ (i = .retfie ∨ regWritten i u = some .intcon))
      ∧ (s.gie = true → t.gie = false →
          (∃ kind, (currentInput s).reset = some kind) ∨ (s.sleeping = false ∧ TimeOutRaised s)
            ∨ (∃ u, (u = takeInput s ∨ u = { takeInput s with sleeping := false, nTO := false }) ∧ takeInterrupt u = .ok t)
            ∨ ∃ u i, atBoundary s = .run u ∧ decode (progRead u u.pc) = some i ∧ exec i u = .next t
                ∧ regWritten i u = some .intcon)
end

