-- ==== Sys2Proof/Laws/Decode.lean ====
section
/-! SUPPORT. The opcode map has no overlap, so a word that one row accepts decodes by that row. -/

namespace Sys2Proof

theorem OpcodeRow.accepts_iff (row : OpcodeRow) (ir : Word) : row.accepts ir = true ↔ ir &&& row.mask = row.value := by
  simp [OpcodeRow.accepts]

/-- Any two rows of the map ask for different values in the bits both of them fix. -/
theorem opcodeRows_conflict : opcodeRows.Pairwise (fun r r' => r.value &&& r'.mask ≠ r'.value &&& r.mask) := by
  simp only [opcodeRows, byteRows, bitRows, literalRows, List.cons_append, List.nil_append]
  decide

/-- Rows in conflict accept no common word. -/
theorem OpcodeRow.not_accepts_both {r r' : OpcodeRow} (h : r.value &&& r'.mask ≠ r'.value &&& r.mask) (ir : Word)
    (hr : r.accepts ir = true) (hr' : r'.accepts ir = true) : False := by
  rw [OpcodeRow.accepts_iff] at hr hr'
  apply h
  rw [← hr, ← hr', BitVec.and_assoc, BitVec.and_assoc, BitVec.and_comm r.mask]

/-- In a list whose rows are in conflict, the first row that accepts a word is any row that accepts it. -/
theorem find_accepts {rows : List OpcodeRow} (h : rows.Pairwise (fun r r' => r.value &&& r'.mask ≠ r'.value &&& r.mask))
    {row : OpcodeRow} (hm : row ∈ rows) {ir : Word} (ha : row.accepts ir = true) :
    rows.find? (fun r => r.accepts ir) = some row := by
  induction rows with
  | nil => cases hm
  | cons r rest ih =>
    obtain ⟨hr, hrest⟩ := List.pairwise_cons.1 h
    rw [List.find?_cons]
    rcases List.mem_cons.1 hm with rfl | hmem
    · rw [ha]
    · cases hc : r.accepts ir with
      | true => exact (OpcodeRow.not_accepts_both (hr row hmem) ir hc ha).elim
      | false => exact ih hrest hmem

/-- A word a row of the map accepts decodes by that row (R98). -/
theorem decode_of_accepts {row : OpcodeRow} (hm : row ∈ opcodeRows) {ir : Word} (ha : ir &&& row.mask = row.value) :
    decode ir = some (row.build ir) := by
  simp [decode, find_accepts opcodeRows_conflict hm ((row.accepts_iff ir).2 ha)]

end Sys2Proof
end

