-- ==== Sys2Proof/Laws/Memory.lean ====
section
/-! SUPPORT. The laws of the canonical lists: what a read gives after a write, and that every operation keeps the canonical
form. -/

namespace Sys2Proof.Machine

variable {α : Type}

@[simp] theorem Memory.read?_nil (a : Nat) : Memory.read? ([] : List (Nat × α)) a = none := rfl

theorem Memory.read?_cons (e : Nat × α) (m : List (Nat × α)) (a : Nat) :
    Memory.read? (e :: m) a = if a = e.1 then some e.2 else Memory.read? m a := rfl

/-- A read after listing a value at an address, in any list. -/
theorem Memory.read?_insert (m : List (Nat × α)) (a b : Nat) (v : α) :
    Memory.read? (Memory.insert m a v) b = if b = a then some v else Memory.read? m b := by
  induction m with
  | nil => simp [Memory.insert, Memory.read?]
  | cons e m ih =>
    unfold Memory.insert
    split
    · simp [Memory.read?_cons]
    · split
      · next _ h => subst h; by_cases hb : b = e.1 <;> simp [Memory.read?_cons, hb]
      · next _ h =>
        rw [Memory.read?_cons, ih, Memory.read?_cons]
        by_cases hb : b = e.1
        · subst hb; simp [Ne.symm h]
        · simp [hb]

/-- A read after unlisting an address, in any list. -/
theorem Memory.read?_erase (m : List (Nat × α)) (a b : Nat) :
    Memory.read? (Memory.erase m a) b = if b = a then none else Memory.read? m b := by
  induction m with
  | nil => simp [Memory.erase, Memory.read?]
  | cons e m ih =>
    unfold Memory.erase at ih ⊢
    by_cases he : e.1 = a
    · rw [List.filter_cons_of_neg (by simp [he]), ih, Memory.read?_cons]
      by_cases hb : b = a <;> simp [hb, he]
    · rw [List.filter_cons_of_pos (by simp [he]), Memory.read?_cons, ih, Memory.read?_cons]
      by_cases hb : b = e.1
      · simp [hb, he]
      · simp [hb]

/-- A read after a write, in any list, with what an unlisted address reads as filled in. -/
theorem Memory.read?_write [DecidableEq α] (blank : Option α) (m : List (Nat × α)) (a b : Nat) (v : α) :
    (Memory.read? (Memory.write blank m a v) b).or blank
      = if b = a then some v else (Memory.read? m b).or blank := by
  unfold Memory.write
  split
  · next h => by_cases hb : b = a <;> simp [Memory.read?_erase, hb, h]
  · by_cases hb : b = a <;> simp [Memory.read?_insert, hb]

/-- A read after a write where no fixed value stands for an unlisted address. -/
@[simp] theorem Memory.read?_write_none [DecidableEq α] (m : List (Nat × α)) (a b : Nat) (v : α) :
    Memory.read? (Memory.write none m a v) b = if b = a then some v else Memory.read? m b := by
  simp [Memory.write, Memory.read?_insert]

/-- Listing a value adds no address but its own. -/
theorem Memory.mem_insert (m : List (Nat × α)) (a : Nat) (v : α) (e : Nat × α) (h : e ∈ Memory.insert m a v) :
    e = (a, v) ∨ e ∈ m := by
  induction m with
  | nil => simpa [Memory.insert] using h
  | cons e' m ih =>
    unfold Memory.insert at h
    split at h
    · simpa using h
    · split at h
      · simp only [List.mem_cons] at h ⊢
        tauto
      · simp only [List.mem_cons] at h ⊢
        rcases h with h | h
        · exact .inr (.inl h)
        · rcases ih h with h | h
          · exact .inl h
          · exact .inr (.inr h)

/-- Listing a value keeps the rising order. -/
theorem Memory.insert_pairwise (m : List (Nat × α)) (a : Nat) (v : α) (h : m.Pairwise (fun e e' => e.1 < e'.1)) :
    (Memory.insert m a v).Pairwise (fun e e' => e.1 < e'.1) := by
  induction m with
  | nil => simp [Memory.insert]
  | cons e m ih =>
    obtain ⟨he, hm⟩ := List.pairwise_cons.1 h
    unfold Memory.insert
    split
    · next ha =>
      refine List.pairwise_cons.2 ⟨fun e' he' => ?_, h⟩
      rcases List.mem_cons.1 he' with rfl | hmem
      · exact ha
      · exact Nat.lt_trans ha (he e' hmem)
    · split
      · next _ ha => exact List.pairwise_cons.2 ⟨fun e' he' => by simpa [ha] using he e' he', hm⟩
      · next h1 h2 =>
        refine List.pairwise_cons.2 ⟨fun e' he' => ?_, ih hm⟩
        rcases Memory.mem_insert m a v e' he' with rfl | hmem
        · exact Nat.lt_of_le_of_ne (Nat.le_of_not_lt h1) (Ne.symm h2)
        · exact he e' hmem

/-- A write inside the address space keeps the canonical form. -/
theorem Memory.write_wf [DecidableEq α] {limit : Nat} {blank : Option α} {m : List (Nat × α)} {a : Nat} {v : α}
    (h : Memory.wf limit blank m) (ha : a < limit) : Memory.wf limit blank (Memory.write blank m a v) := by
  obtain ⟨hp, hm⟩ := h
  unfold Memory.write
  split
  · exact ⟨hp.filter _, fun e he => hm e (List.mem_filter.1 he).1⟩
  · next hv =>
    refine ⟨Memory.insert_pairwise m a v hp, fun e he => ?_⟩
    rcases Memory.mem_insert m a v e he with rfl | hmem
    · exact ⟨ha, hv⟩
    · exact hm e hmem

theorem Memory.wf_nil [DecidableEq α] (limit : Nat) (blank : Option α) : Memory.wf limit blank [] := by simp [Memory.wf]

/-- Program memory keeps its canonical form under a load. -/
theorem loadWord_wf (s : State) (a : ProgAddr) (v : Word) (h : Memory.wf 8192 (some Config.unloadedWord) s.prog) :
    Memory.wf 8192 (some Config.unloadedWord) (loadWord s a v).prog :=
  Memory.write_wf h a.isLt

/-- What program memory reads as after a load. -/
theorem progRead_loadWord (s : State) (a b : ProgAddr) (v : Word) :
    progRead (loadWord s a v) b = if b = a then v else progRead s b := by
  have h := Memory.read?_write (some Config.unloadedWord) s.prog a.toNat b.toNat v
  simp only [progRead, loadWord]
  by_cases hb : b = a
  · subst hb
    simp only [if_true] at h
    cases hr : Memory.read? (Memory.write (some Config.unloadedWord) s.prog b.toNat v) b.toNat with
    | none => rw [hr] at h; simpa using h
    | some x => rw [hr] at h; simpa using h
  · have hb' : b.toNat ≠ a.toNat := fun e => hb (BitVec.eq_of_toNat_eq e)
    simp only [hb', if_false] at h
    simp only [hb, if_false]
    cases hr : Memory.read? (Memory.write (some Config.unloadedWord) s.prog a.toNat v) b.toNat <;>
      cases hr' : Memory.read? s.prog b.toNat <;> simp_all

end Sys2Proof.Machine
end

