-- ==== Sys2Proof/Laws/State.lean ====
section
/-! SUPPORT. One lemma per field per named update of the state: what the update makes of the field. -/

namespace Sys2Proof.Machine

/-! ### State.setPc -/

@[simp] theorem State.setPc_params (s : State) (a : ProgAddr) : (s.setPc a).params = s.params := rfl
@[simp] theorem State.setPc_prog (s : State) (a : ProgAddr) : (s.setPc a).prog = s.prog := rfl
@[simp] theorem State.setPc_w (s : State) (a : ProgAddr) : (s.setPc a).w = s.w := rfl
@[simp] theorem State.setPc_pc (s : State) (a : ProgAddr) : (s.setPc a).pc = a := rfl
@[simp] theorem State.setPc_stk (s : State) (a : ProgAddr) : (s.setPc a).stk = s.stk := rfl
@[simp] theorem State.setPc_c (s : State) (a : ProgAddr) : (s.setPc a).c = s.c := rfl
@[simp] theorem State.setPc_dc (s : State) (a : ProgAddr) : (s.setPc a).dc = s.dc := rfl
@[simp] theorem State.setPc_z (s : State) (a : ProgAddr) : (s.setPc a).z = s.z := rfl
@[simp] theorem State.setPc_nTO (s : State) (a : ProgAddr) : (s.setPc a).nTO = s.nTO := rfl
@[simp] theorem State.setPc_nPD (s : State) (a : ProgAddr) : (s.setPc a).nPD = s.nPD := rfl
@[simp] theorem State.setPc_irp (s : State) (a : ProgAddr) : (s.setPc a).irp = s.irp := rfl
@[simp] theorem State.setPc_rp (s : State) (a : ProgAddr) : (s.setPc a).rp = s.rp := rfl
@[simp] theorem State.setPc_pclath (s : State) (a : ProgAddr) : (s.setPc a).pclath = s.pclath := rfl
@[simp] theorem State.setPc_gie (s : State) (a : ProgAddr) : (s.setPc a).gie = s.gie := rfl
@[simp] theorem State.setPc_intcon (s : State) (a : ProgAddr) : (s.setPc a).intcon = s.intcon := rfl
@[simp] theorem State.setPc_fsr (s : State) (a : ProgAddr) : (s.setPc a).fsr = s.fsr := rfl
@[simp] theorem State.setPc_optionReg (s : State) (a : ProgAddr) : (s.setPc a).optionReg = s.optionReg := rfl
@[simp] theorem State.setPc_tmr0 (s : State) (a : ProgAddr) : (s.setPc a).tmr0 = s.tmr0 := rfl
@[simp] theorem State.setPc_wdt (s : State) (a : ProgAddr) : (s.setPc a).wdt = s.wdt := rfl
@[simp] theorem State.setPc_wdtps (s : State) (a : ProgAddr) : (s.setPc a).wdtps = s.wdtps := rfl
@[simp] theorem State.setPc_t0ps (s : State) (a : ProgAddr) : (s.setPc a).t0ps = s.t0ps := rfl
@[simp] theorem State.setPc_sleeping (s : State) (a : ProgAddr) : (s.setPc a).sleeping = s.sleeping := rfl
@[simp] theorem State.setPc_ram (s : State) (a : ProgAddr) : (s.setPc a).ram = s.ram := rfl
@[simp] theorem State.setPc_latch (s : State) (a : ProgAddr) : (s.setPc a).latch = s.latch := rfl
@[simp] theorem State.setPc_pins (s : State) (a : ProgAddr) : (s.setPc a).pins = s.pins := rfl
@[simp] theorem State.setPc_conds (s : State) (a : ProgAddr) : (s.setPc a).conds = s.conds := rfl
@[simp] theorem State.setPc_inputs (s : State) (a : ProgAddr) : (s.setPc a).inputs = s.inputs := rfl
@[simp] theorem State.setPc_draws (s : State) (a : ProgAddr) : (s.setPc a).draws = s.draws := rfl
@[simp] theorem State.setPc_epoch (s : State) (a : ProgAddr) : (s.setPc a).epoch = s.epoch := rfl

/-! ### State.advance -/

@[simp] theorem State.advance_params (s : State) : (s.advance).params = s.params := rfl
@[simp] theorem State.advance_prog (s : State) : (s.advance).prog = s.prog := rfl
@[simp] theorem State.advance_w (s : State) : (s.advance).w = s.w := rfl
@[simp] theorem State.advance_pc (s : State) : (s.advance).pc = s.pc + 1 := rfl
@[simp] theorem State.advance_stk (s : State) : (s.advance).stk = s.stk := rfl
@[simp] theorem State.advance_c (s : State) : (s.advance).c = s.c := rfl
@[simp] theorem State.advance_dc (s : State) : (s.advance).dc = s.dc := rfl
@[simp] theorem State.advance_z (s : State) : (s.advance).z = s.z := rfl
@[simp] theorem State.advance_nTO (s : State) : (s.advance).nTO = s.nTO := rfl
@[simp] theorem State.advance_nPD (s : State) : (s.advance).nPD = s.nPD := rfl
@[simp] theorem State.advance_irp (s : State) : (s.advance).irp = s.irp := rfl
@[simp] theorem State.advance_rp (s : State) : (s.advance).rp = s.rp := rfl
@[simp] theorem State.advance_pclath (s : State) : (s.advance).pclath = s.pclath := rfl
@[simp] theorem State.advance_gie (s : State) : (s.advance).gie = s.gie := rfl
@[simp] theorem State.advance_intcon (s : State) : (s.advance).intcon = s.intcon := rfl
@[simp] theorem State.advance_fsr (s : State) : (s.advance).fsr = s.fsr := rfl
@[simp] theorem State.advance_optionReg (s : State) : (s.advance).optionReg = s.optionReg := rfl
@[simp] theorem State.advance_tmr0 (s : State) : (s.advance).tmr0 = s.tmr0 := rfl
@[simp] theorem State.advance_wdt (s : State) : (s.advance).wdt = s.wdt := rfl
@[simp] theorem State.advance_wdtps (s : State) : (s.advance).wdtps = s.wdtps := rfl
@[simp] theorem State.advance_t0ps (s : State) : (s.advance).t0ps = s.t0ps := rfl
@[simp] theorem State.advance_sleeping (s : State) : (s.advance).sleeping = s.sleeping := rfl
@[simp] theorem State.advance_ram (s : State) : (s.advance).ram = s.ram := rfl
@[simp] theorem State.advance_latch (s : State) : (s.advance).latch = s.latch := rfl
@[simp] theorem State.advance_pins (s : State) : (s.advance).pins = s.pins := rfl
@[simp] theorem State.advance_conds (s : State) : (s.advance).conds = s.conds := rfl
@[simp] theorem State.advance_inputs (s : State) : (s.advance).inputs = s.inputs := rfl
@[simp] theorem State.advance_draws (s : State) : (s.advance).draws = s.draws := rfl
@[simp] theorem State.advance_epoch (s : State) : (s.advance).epoch = s.epoch := rfl

/-! ### State.setW -/

@[simp] theorem State.setW_params (s : State) (v : Byte) : (s.setW v).params = s.params := rfl
@[simp] theorem State.setW_prog (s : State) (v : Byte) : (s.setW v).prog = s.prog := rfl
@[simp] theorem State.setW_w (s : State) (v : Byte) : (s.setW v).w = v := rfl
@[simp] theorem State.setW_pc (s : State) (v : Byte) : (s.setW v).pc = s.pc := rfl
@[simp] theorem State.setW_stk (s : State) (v : Byte) : (s.setW v).stk = s.stk := rfl
@[simp] theorem State.setW_c (s : State) (v : Byte) : (s.setW v).c = s.c := rfl
@[simp] theorem State.setW_dc (s : State) (v : Byte) : (s.setW v).dc = s.dc := rfl
@[simp] theorem State.setW_z (s : State) (v : Byte) : (s.setW v).z = s.z := rfl
@[simp] theorem State.setW_nTO (s : State) (v : Byte) : (s.setW v).nTO = s.nTO := rfl
@[simp] theorem State.setW_nPD (s : State) (v : Byte) : (s.setW v).nPD = s.nPD := rfl
@[simp] theorem State.setW_irp (s : State) (v : Byte) : (s.setW v).irp = s.irp := rfl
@[simp] theorem State.setW_rp (s : State) (v : Byte) : (s.setW v).rp = s.rp := rfl
@[simp] theorem State.setW_pclath (s : State) (v : Byte) : (s.setW v).pclath = s.pclath := rfl
@[simp] theorem State.setW_gie (s : State) (v : Byte) : (s.setW v).gie = s.gie := rfl
@[simp] theorem State.setW_intcon (s : State) (v : Byte) : (s.setW v).intcon = s.intcon := rfl
@[simp] theorem State.setW_fsr (s : State) (v : Byte) : (s.setW v).fsr = s.fsr := rfl
@[simp] theorem State.setW_optionReg (s : State) (v : Byte) : (s.setW v).optionReg = s.optionReg := rfl
@[simp] theorem State.setW_tmr0 (s : State) (v : Byte) : (s.setW v).tmr0 = s.tmr0 := rfl
@[simp] theorem State.setW_wdt (s : State) (v : Byte) : (s.setW v).wdt = s.wdt := rfl
@[simp] theorem State.setW_wdtps (s : State) (v : Byte) : (s.setW v).wdtps = s.wdtps := rfl
@[simp] theorem State.setW_t0ps (s : State) (v : Byte) : (s.setW v).t0ps = s.t0ps := rfl
@[simp] theorem State.setW_sleeping (s : State) (v : Byte) : (s.setW v).sleeping = s.sleeping := rfl
@[simp] theorem State.setW_ram (s : State) (v : Byte) : (s.setW v).ram = s.ram := rfl
@[simp] theorem State.setW_latch (s : State) (v : Byte) : (s.setW v).latch = s.latch := rfl
@[simp] theorem State.setW_pins (s : State) (v : Byte) : (s.setW v).pins = s.pins := rfl
@[simp] theorem State.setW_conds (s : State) (v : Byte) : (s.setW v).conds = s.conds := rfl
@[simp] theorem State.setW_inputs (s : State) (v : Byte) : (s.setW v).inputs = s.inputs := rfl
@[simp] theorem State.setW_draws (s : State) (v : Byte) : (s.setW v).draws = s.draws := rfl
@[simp] theorem State.setW_epoch (s : State) (v : Byte) : (s.setW v).epoch = s.epoch := rfl

/-! ### State.setFlags -/

@[simp] theorem State.setFlags_params (s : State) (fw : FlagWrite) : (s.setFlags fw).params = s.params := rfl
@[simp] theorem State.setFlags_prog (s : State) (fw : FlagWrite) : (s.setFlags fw).prog = s.prog := rfl
@[simp] theorem State.setFlags_w (s : State) (fw : FlagWrite) : (s.setFlags fw).w = s.w := rfl
@[simp] theorem State.setFlags_pc (s : State) (fw : FlagWrite) : (s.setFlags fw).pc = s.pc := rfl
@[simp] theorem State.setFlags_stk (s : State) (fw : FlagWrite) : (s.setFlags fw).stk = s.stk := rfl
@[simp] theorem State.setFlags_c (s : State) (fw : FlagWrite) : (s.setFlags fw).c = fw.c.getD s.c := rfl
@[simp] theorem State.setFlags_dc (s : State) (fw : FlagWrite) : (s.setFlags fw).dc = fw.dc.getD s.dc := rfl
@[simp] theorem State.setFlags_z (s : State) (fw : FlagWrite) : (s.setFlags fw).z = fw.z.getD s.z := rfl
@[simp] theorem State.setFlags_nTO (s : State) (fw : FlagWrite) : (s.setFlags fw).nTO = s.nTO := rfl
@[simp] theorem State.setFlags_nPD (s : State) (fw : FlagWrite) : (s.setFlags fw).nPD = s.nPD := rfl
@[simp] theorem State.setFlags_irp (s : State) (fw : FlagWrite) : (s.setFlags fw).irp = s.irp := rfl
@[simp] theorem State.setFlags_rp (s : State) (fw : FlagWrite) : (s.setFlags fw).rp = s.rp := rfl
@[simp] theorem State.setFlags_pclath (s : State) (fw : FlagWrite) : (s.setFlags fw).pclath = s.pclath := rfl
@[simp] theorem State.setFlags_gie (s : State) (fw : FlagWrite) : (s.setFlags fw).gie = s.gie := rfl
@[simp] theorem State.setFlags_intcon (s : State) (fw : FlagWrite) : (s.setFlags fw).intcon = s.intcon := rfl
@[simp] theorem State.setFlags_fsr (s : State) (fw : FlagWrite) : (s.setFlags fw).fsr = s.fsr := rfl
@[simp] theorem State.setFlags_optionReg (s : State) (fw : FlagWrite) : (s.setFlags fw).optionReg = s.optionReg := rfl
@[simp] theorem State.setFlags_tmr0 (s : State) (fw : FlagWrite) : (s.setFlags fw).tmr0 = s.tmr0 := rfl
@[simp] theorem State.setFlags_wdt (s : State) (fw : FlagWrite) : (s.setFlags fw).wdt = s.wdt := rfl
@[simp] theorem State.setFlags_wdtps (s : State) (fw : FlagWrite) : (s.setFlags fw).wdtps = s.wdtps := rfl
@[simp] theorem State.setFlags_t0ps (s : State) (fw : FlagWrite) : (s.setFlags fw).t0ps = s.t0ps := rfl
@[simp] theorem State.setFlags_sleeping (s : State) (fw : FlagWrite) : (s.setFlags fw).sleeping = s.sleeping := rfl
@[simp] theorem State.setFlags_ram (s : State) (fw : FlagWrite) : (s.setFlags fw).ram = s.ram := rfl
@[simp] theorem State.setFlags_latch (s : State) (fw : FlagWrite) : (s.setFlags fw).latch = s.latch := rfl
@[simp] theorem State.setFlags_pins (s : State) (fw : FlagWrite) : (s.setFlags fw).pins = s.pins := rfl
@[simp] theorem State.setFlags_conds (s : State) (fw : FlagWrite) : (s.setFlags fw).conds = s.conds := rfl
@[simp] theorem State.setFlags_inputs (s : State) (fw : FlagWrite) : (s.setFlags fw).inputs = s.inputs := rfl
@[simp] theorem State.setFlags_draws (s : State) (fw : FlagWrite) : (s.setFlags fw).draws = s.draws := rfl
@[simp] theorem State.setFlags_epoch (s : State) (fw : FlagWrite) : (s.setFlags fw).epoch = s.epoch := rfl

/-! ### storageWrite -/

@[simp] theorem storageWrite_params (s : State) (a : Nat) (v : Byte) : (storageWrite s a v).params = s.params := rfl
@[simp] theorem storageWrite_prog (s : State) (a : Nat) (v : Byte) : (storageWrite s a v).prog = s.prog := rfl
@[simp] theorem storageWrite_w (s : State) (a : Nat) (v : Byte) : (storageWrite s a v).w = s.w := rfl
@[simp] theorem storageWrite_pc (s : State) (a : Nat) (v : Byte) : (storageWrite s a v).pc = s.pc := rfl
@[simp] theorem storageWrite_stk (s : State) (a : Nat) (v : Byte) : (storageWrite s a v).stk = s.stk := rfl
@[simp] theorem storageWrite_c (s : State) (a : Nat) (v : Byte) : (storageWrite s a v).c = s.c := rfl
@[simp] theorem storageWrite_dc (s : State) (a : Nat) (v : Byte) : (storageWrite s a v).dc = s.dc := rfl
@[simp] theorem storageWrite_z (s : State) (a : Nat) (v : Byte) : (storageWrite s a v).z = s.z := rfl
@[simp] theorem storageWrite_nTO (s : State) (a : Nat) (v : Byte) : (storageWrite s a v).nTO = s.nTO := rfl
@[simp] theorem storageWrite_nPD (s : State) (a : Nat) (v : Byte) : (storageWrite s a v).nPD = s.nPD := rfl
@[simp] theorem storageWrite_irp (s : State) (a : Nat) (v : Byte) : (storageWrite s a v).irp = s.irp := rfl
@[simp] theorem storageWrite_rp (s : State) (a : Nat) (v : Byte) : (storageWrite s a v).rp = s.rp := rfl
@[simp] theorem storageWrite_pclath (s : State) (a : Nat) (v : Byte) : (storageWrite s a v).pclath = s.pclath := rfl
@[simp] theorem storageWrite_gie (s : State) (a : Nat) (v : Byte) : (storageWrite s a v).gie = s.gie := rfl
@[simp] theorem storageWrite_intcon (s : State) (a : Nat) (v : Byte) : (storageWrite s a v).intcon = s.intcon := rfl
@[simp] theorem storageWrite_fsr (s : State) (a : Nat) (v : Byte) : (storageWrite s a v).fsr = s.fsr := rfl
@[simp] theorem storageWrite_optionReg (s : State) (a : Nat) (v : Byte) : (storageWrite s a v).optionReg = s.optionReg := rfl
@[simp] theorem storageWrite_tmr0 (s : State) (a : Nat) (v : Byte) : (storageWrite s a v).tmr0 = s.tmr0 := rfl
@[simp] theorem storageWrite_wdt (s : State) (a : Nat) (v : Byte) : (storageWrite s a v).wdt = s.wdt := rfl
@[simp] theorem storageWrite_wdtps (s : State) (a : Nat) (v : Byte) : (storageWrite s a v).wdtps = s.wdtps := rfl
@[simp] theorem storageWrite_t0ps (s : State) (a : Nat) (v : Byte) : (storageWrite s a v).t0ps = s.t0ps := rfl
@[simp] theorem storageWrite_sleeping (s : State) (a : Nat) (v : Byte) : (storageWrite s a v).sleeping = s.sleeping := rfl
@[simp] theorem storageWrite_ram (s : State) (a : Nat) (v : Byte) : (storageWrite s a v).ram = Memory.write none s.ram a v := rfl
@[simp] theorem storageWrite_latch (s : State) (a : Nat) (v : Byte) : (storageWrite s a v).latch = s.latch := rfl
@[simp] theorem storageWrite_pins (s : State) (a : Nat) (v : Byte) : (storageWrite s a v).pins = s.pins := rfl
@[simp] theorem storageWrite_conds (s : State) (a : Nat) (v : Byte) : (storageWrite s a v).conds = s.conds := rfl
@[simp] theorem storageWrite_inputs (s : State) (a : Nat) (v : Byte) : (storageWrite s a v).inputs = s.inputs := rfl
@[simp] theorem storageWrite_draws (s : State) (a : Nat) (v : Byte) : (storageWrite s a v).draws = s.draws := rfl
@[simp] theorem storageWrite_epoch (s : State) (a : Nat) (v : Byte) : (storageWrite s a v).epoch = s.epoch := rfl

/-! ### loadWord -/

@[simp] theorem loadWord_params (s : State) (a : ProgAddr) (v : Word) : (loadWord s a v).params = s.params := rfl
@[simp] theorem loadWord_prog (s : State) (a : ProgAddr) (v : Word) : (loadWord s a v).prog = Memory.write (some Config.unloadedWord) s.prog a.toNat v := rfl
@[simp] theorem loadWord_w (s : State) (a : ProgAddr) (v : Word) : (loadWord s a v).w = s.w := rfl
@[simp] theorem loadWord_pc (s : State) (a : ProgAddr) (v : Word) : (loadWord s a v).pc = s.pc := rfl
@[simp] theorem loadWord_stk (s : State) (a : ProgAddr) (v : Word) : (loadWord s a v).stk = s.stk := rfl
@[simp] theorem loadWord_c (s : State) (a : ProgAddr) (v : Word) : (loadWord s a v).c = s.c := rfl
@[simp] theorem loadWord_dc (s : State) (a : ProgAddr) (v : Word) : (loadWord s a v).dc = s.dc := rfl
@[simp] theorem loadWord_z (s : State) (a : ProgAddr) (v : Word) : (loadWord s a v).z = s.z := rfl
@[simp] theorem loadWord_nTO (s : State) (a : ProgAddr) (v : Word) : (loadWord s a v).nTO = s.nTO := rfl
@[simp] theorem loadWord_nPD (s : State) (a : ProgAddr) (v : Word) : (loadWord s a v).nPD = s.nPD := rfl
@[simp] theorem loadWord_irp (s : State) (a : ProgAddr) (v : Word) : (loadWord s a v).irp = s.irp := rfl
@[simp] theorem loadWord_rp (s : State) (a : ProgAddr) (v : Word) : (loadWord s a v).rp = s.rp := rfl
@[simp] theorem loadWord_pclath (s : State) (a : ProgAddr) (v : Word) : (loadWord s a v).pclath = s.pclath := rfl
@[simp] theorem loadWord_gie (s : State) (a : ProgAddr) (v : Word) : (loadWord s a v).gie = s.gie := rfl
@[simp] theorem loadWord_intcon (s : State) (a : ProgAddr) (v : Word) : (loadWord s a v).intcon = s.intcon := rfl
@[simp] theorem loadWord_fsr (s : State) (a : ProgAddr) (v : Word) : (loadWord s a v).fsr = s.fsr := rfl
@[simp] theorem loadWord_optionReg (s : State) (a : ProgAddr) (v : Word) : (loadWord s a v).optionReg = s.optionReg := rfl
@[simp] theorem loadWord_tmr0 (s : State) (a : ProgAddr) (v : Word) : (loadWord s a v).tmr0 = s.tmr0 := rfl
@[simp] theorem loadWord_wdt (s : State) (a : ProgAddr) (v : Word) : (loadWord s a v).wdt = s.wdt := rfl
@[simp] theorem loadWord_wdtps (s : State) (a : ProgAddr) (v : Word) : (loadWord s a v).wdtps = s.wdtps := rfl
@[simp] theorem loadWord_t0ps (s : State) (a : ProgAddr) (v : Word) : (loadWord s a v).t0ps = s.t0ps := rfl
@[simp] theorem loadWord_sleeping (s : State) (a : ProgAddr) (v : Word) : (loadWord s a v).sleeping = s.sleeping := rfl
@[simp] theorem loadWord_ram (s : State) (a : ProgAddr) (v : Word) : (loadWord s a v).ram = s.ram := rfl
@[simp] theorem loadWord_latch (s : State) (a : ProgAddr) (v : Word) : (loadWord s a v).latch = s.latch := rfl
@[simp] theorem loadWord_pins (s : State) (a : ProgAddr) (v : Word) : (loadWord s a v).pins = s.pins := rfl
@[simp] theorem loadWord_conds (s : State) (a : ProgAddr) (v : Word) : (loadWord s a v).conds = s.conds := rfl
@[simp] theorem loadWord_inputs (s : State) (a : ProgAddr) (v : Word) : (loadWord s a v).inputs = s.inputs := rfl
@[simp] theorem loadWord_draws (s : State) (a : ProgAddr) (v : Word) : (loadWord s a v).draws = s.draws := rfl
@[simp] theorem loadWord_epoch (s : State) (a : ProgAddr) (v : Word) : (loadWord s a v).epoch = s.epoch := rfl

/-! ### clearWatchdog -/

@[simp] theorem clearWatchdog_params (s : State) : (clearWatchdog s).params = s.params := rfl
@[simp] theorem clearWatchdog_prog (s : State) : (clearWatchdog s).prog = s.prog := rfl
@[simp] theorem clearWatchdog_w (s : State) : (clearWatchdog s).w = s.w := rfl
@[simp] theorem clearWatchdog_pc (s : State) : (clearWatchdog s).pc = s.pc := rfl
@[simp] theorem clearWatchdog_stk (s : State) : (clearWatchdog s).stk = s.stk := rfl
@[simp] theorem clearWatchdog_c (s : State) : (clearWatchdog s).c = s.c := rfl
@[simp] theorem clearWatchdog_dc (s : State) : (clearWatchdog s).dc = s.dc := rfl
@[simp] theorem clearWatchdog_z (s : State) : (clearWatchdog s).z = s.z := rfl
@[simp] theorem clearWatchdog_nTO (s : State) : (clearWatchdog s).nTO = s.nTO := rfl
@[simp] theorem clearWatchdog_nPD (s : State) : (clearWatchdog s).nPD = s.nPD := rfl
@[simp] theorem clearWatchdog_irp (s : State) : (clearWatchdog s).irp = s.irp := rfl
@[simp] theorem clearWatchdog_rp (s : State) : (clearWatchdog s).rp = s.rp := rfl
@[simp] theorem clearWatchdog_pclath (s : State) : (clearWatchdog s).pclath = s.pclath := rfl
@[simp] theorem clearWatchdog_gie (s : State) : (clearWatchdog s).gie = s.gie := rfl
@[simp] theorem clearWatchdog_intcon (s : State) : (clearWatchdog s).intcon = s.intcon := rfl
@[simp] theorem clearWatchdog_fsr (s : State) : (clearWatchdog s).fsr = s.fsr := rfl
@[simp] theorem clearWatchdog_optionReg (s : State) : (clearWatchdog s).optionReg = s.optionReg := rfl
@[simp] theorem clearWatchdog_tmr0 (s : State) : (clearWatchdog s).tmr0 = s.tmr0 := rfl
@[simp] theorem clearWatchdog_wdt (s : State) : (clearWatchdog s).wdt = 0 := rfl
@[simp] theorem clearWatchdog_wdtps (s : State) : (clearWatchdog s).wdtps = 0 := rfl
@[simp] theorem clearWatchdog_t0ps (s : State) : (clearWatchdog s).t0ps = s.t0ps := rfl
@[simp] theorem clearWatchdog_sleeping (s : State) : (clearWatchdog s).sleeping = s.sleeping := rfl
@[simp] theorem clearWatchdog_ram (s : State) : (clearWatchdog s).ram = s.ram := rfl
@[simp] theorem clearWatchdog_latch (s : State) : (clearWatchdog s).latch = s.latch := rfl
@[simp] theorem clearWatchdog_pins (s : State) : (clearWatchdog s).pins = s.pins := rfl
@[simp] theorem clearWatchdog_conds (s : State) : (clearWatchdog s).conds = s.conds := rfl
@[simp] theorem clearWatchdog_inputs (s : State) : (clearWatchdog s).inputs = s.inputs := rfl
@[simp] theorem clearWatchdog_draws (s : State) : (clearWatchdog s).draws = s.draws := rfl
@[simp] theorem clearWatchdog_epoch (s : State) : (clearWatchdog s).epoch = s.epoch := rfl

/-! ### writeTmr0 -/

@[simp] theorem writeTmr0_params (s : State) (v : Byte) : (writeTmr0 v s).params = s.params := rfl
@[simp] theorem writeTmr0_prog (s : State) (v : Byte) : (writeTmr0 v s).prog = s.prog := rfl
@[simp] theorem writeTmr0_w (s : State) (v : Byte) : (writeTmr0 v s).w = s.w := rfl
@[simp] theorem writeTmr0_pc (s : State) (v : Byte) : (writeTmr0 v s).pc = s.pc := rfl
@[simp] theorem writeTmr0_stk (s : State) (v : Byte) : (writeTmr0 v s).stk = s.stk := rfl
@[simp] theorem writeTmr0_c (s : State) (v : Byte) : (writeTmr0 v s).c = s.c := rfl
@[simp] theorem writeTmr0_dc (s : State) (v : Byte) : (writeTmr0 v s).dc = s.dc := rfl
@[simp] theorem writeTmr0_z (s : State) (v : Byte) : (writeTmr0 v s).z = s.z := rfl
@[simp] theorem writeTmr0_nTO (s : State) (v : Byte) : (writeTmr0 v s).nTO = s.nTO := rfl
@[simp] theorem writeTmr0_nPD (s : State) (v : Byte) : (writeTmr0 v s).nPD = s.nPD := rfl
@[simp] theorem writeTmr0_irp (s : State) (v : Byte) : (writeTmr0 v s).irp = s.irp := rfl
@[simp] theorem writeTmr0_rp (s : State) (v : Byte) : (writeTmr0 v s).rp = s.rp := rfl
@[simp] theorem writeTmr0_pclath (s : State) (v : Byte) : (writeTmr0 v s).pclath = s.pclath := rfl
@[simp] theorem writeTmr0_gie (s : State) (v : Byte) : (writeTmr0 v s).gie = s.gie := rfl
@[simp] theorem writeTmr0_intcon (s : State) (v : Byte) : (writeTmr0 v s).intcon = s.intcon := rfl
@[simp] theorem writeTmr0_fsr (s : State) (v : Byte) : (writeTmr0 v s).fsr = s.fsr := rfl
@[simp] theorem writeTmr0_optionReg (s : State) (v : Byte) : (writeTmr0 v s).optionReg = s.optionReg := rfl
@[simp] theorem writeTmr0_tmr0 (s : State) (v : Byte) : (writeTmr0 v s).tmr0 = v := rfl
@[simp] theorem writeTmr0_wdt (s : State) (v : Byte) : (writeTmr0 v s).wdt = s.wdt := rfl
@[simp] theorem writeTmr0_wdtps (s : State) (v : Byte) : (writeTmr0 v s).wdtps = s.wdtps := rfl
@[simp] theorem writeTmr0_t0ps (s : State) (v : Byte) : (writeTmr0 v s).t0ps = if s.optionReg.getLsbD 3 then s.t0ps else 0 := rfl
@[simp] theorem writeTmr0_sleeping (s : State) (v : Byte) : (writeTmr0 v s).sleeping = s.sleeping := rfl
@[simp] theorem writeTmr0_ram (s : State) (v : Byte) : (writeTmr0 v s).ram = s.ram := rfl
@[simp] theorem writeTmr0_latch (s : State) (v : Byte) : (writeTmr0 v s).latch = s.latch := rfl
@[simp] theorem writeTmr0_pins (s : State) (v : Byte) : (writeTmr0 v s).pins = s.pins := rfl
@[simp] theorem writeTmr0_conds (s : State) (v : Byte) : (writeTmr0 v s).conds = s.conds := rfl
@[simp] theorem writeTmr0_inputs (s : State) (v : Byte) : (writeTmr0 v s).inputs = s.inputs := rfl
@[simp] theorem writeTmr0_draws (s : State) (v : Byte) : (writeTmr0 v s).draws = s.draws := rfl
@[simp] theorem writeTmr0_epoch (s : State) (v : Byte) : (writeTmr0 v s).epoch = s.epoch := rfl

/-! ### writeStatus -/

@[simp] theorem writeStatus_params (s : State) (masked : Bool) (v : Byte) : (writeStatus masked v s).params = s.params := rfl
@[simp] theorem writeStatus_prog (s : State) (masked : Bool) (v : Byte) : (writeStatus masked v s).prog = s.prog := rfl
@[simp] theorem writeStatus_w (s : State) (masked : Bool) (v : Byte) : (writeStatus masked v s).w = s.w := rfl
@[simp] theorem writeStatus_pc (s : State) (masked : Bool) (v : Byte) : (writeStatus masked v s).pc = s.pc := rfl
@[simp] theorem writeStatus_stk (s : State) (masked : Bool) (v : Byte) : (writeStatus masked v s).stk = s.stk := rfl
@[simp] theorem writeStatus_c (s : State) (masked : Bool) (v : Byte) : (writeStatus masked v s).c = if masked then s.c else v.getLsbD 0 := rfl
@[simp] theorem writeStatus_dc (s : State) (masked : Bool) (v : Byte) : (writeStatus masked v s).dc = if masked then s.dc else v.getLsbD 1 := rfl
@[simp] theorem writeStatus_z (s : State) (masked : Bool) (v : Byte) : (writeStatus masked v s).z = if masked then s.z else v.getLsbD 2 := rfl
@[simp] theorem writeStatus_nTO (s : State) (masked : Bool) (v : Byte) : (writeStatus masked v s).nTO = s.nTO := rfl
@[simp] theorem writeStatus_nPD (s : State) (masked : Bool) (v : Byte) : (writeStatus masked v s).nPD = s.nPD := rfl
@[simp] theorem writeStatus_irp (s : State) (masked : Bool) (v : Byte) : (writeStatus masked v s).irp = v.getLsbD 7 := rfl
@[simp] theorem writeStatus_rp (s : State) (masked : Bool) (v : Byte) : (writeStatus masked v s).rp = v.extractLsb' 5 2 := rfl
@[simp] theorem writeStatus_pclath (s : State) (masked : Bool) (v : Byte) : (writeStatus masked v s).pclath = s.pclath := rfl
@[simp] theorem writeStatus_gie (s : State) (masked : Bool) (v : Byte) : (writeStatus masked v s).gie = s.gie := rfl
@[simp] theorem writeStatus_intcon (s : State) (masked : Bool) (v : Byte) : (writeStatus masked v s).intcon = s.intcon := rfl
@[simp] theorem writeStatus_fsr (s : State) (masked : Bool) (v : Byte) : (writeStatus masked v s).fsr = s.fsr := rfl
@[simp] theorem writeStatus_optionReg (s : State) (masked : Bool) (v : Byte) : (writeStatus masked v s).optionReg = s.optionReg := rfl
@[simp] theorem writeStatus_tmr0 (s : State) (masked : Bool) (v : Byte) : (writeStatus masked v s).tmr0 = s.tmr0 := rfl
@[simp] theorem writeStatus_wdt (s : State) (masked : Bool) (v : Byte) : (writeStatus masked v s).wdt = s.wdt := rfl
@[simp] theorem writeStatus_wdtps (s : State) (masked : Bool) (v : Byte) : (writeStatus masked v s).wdtps = s.wdtps := rfl
@[simp] theorem writeStatus_t0ps (s : State) (masked : Bool) (v : Byte) : (writeStatus masked v s).t0ps = s.t0ps := rfl
@[simp] theorem writeStatus_sleeping (s : State) (masked : Bool) (v : Byte) : (writeStatus masked v s).sleeping = s.sleeping := rfl
@[simp] theorem writeStatus_ram (s : State) (masked : Bool) (v : Byte) : (writeStatus masked v s).ram = s.ram := rfl
@[simp] theorem writeStatus_latch (s : State) (masked : Bool) (v : Byte) : (writeStatus masked v s).latch = s.latch := rfl
@[simp] theorem writeStatus_pins (s : State) (masked : Bool) (v : Byte) : (writeStatus masked v s).pins = s.pins := rfl
@[simp] theorem writeStatus_conds (s : State) (masked : Bool) (v : Byte) : (writeStatus masked v s).conds = s.conds := rfl
@[simp] theorem writeStatus_inputs (s : State) (masked : Bool) (v : Byte) : (writeStatus masked v s).inputs = s.inputs := rfl
@[simp] theorem writeStatus_draws (s : State) (masked : Bool) (v : Byte) : (writeStatus masked v s).draws = s.draws := rfl
@[simp] theorem writeStatus_epoch (s : State) (masked : Bool) (v : Byte) : (writeStatus masked v s).epoch = s.epoch := rfl

/-! ### takeInput -/

@[simp] theorem takeInput_params (s : State) : (takeInput s).params = s.params := rfl
@[simp] theorem takeInput_prog (s : State) : (takeInput s).prog = s.prog := rfl
@[simp] theorem takeInput_w (s : State) : (takeInput s).w = s.w := rfl
@[simp] theorem takeInput_pc (s : State) : (takeInput s).pc = s.pc := rfl
@[simp] theorem takeInput_stk (s : State) : (takeInput s).stk = s.stk := rfl
@[simp] theorem takeInput_c (s : State) : (takeInput s).c = s.c := rfl
@[simp] theorem takeInput_dc (s : State) : (takeInput s).dc = s.dc := rfl
@[simp] theorem takeInput_z (s : State) : (takeInput s).z = s.z := rfl
@[simp] theorem takeInput_nTO (s : State) : (takeInput s).nTO = s.nTO := rfl
@[simp] theorem takeInput_nPD (s : State) : (takeInput s).nPD = s.nPD := rfl
@[simp] theorem takeInput_irp (s : State) : (takeInput s).irp = s.irp := rfl
@[simp] theorem takeInput_rp (s : State) : (takeInput s).rp = s.rp := rfl
@[simp] theorem takeInput_pclath (s : State) : (takeInput s).pclath = s.pclath := rfl
@[simp] theorem takeInput_gie (s : State) : (takeInput s).gie = s.gie := rfl
@[simp] theorem takeInput_intcon (s : State) : (takeInput s).intcon = s.intcon ||| (currentInput s).flags.setWidth 7 := rfl
@[simp] theorem takeInput_fsr (s : State) : (takeInput s).fsr = s.fsr := rfl
@[simp] theorem takeInput_optionReg (s : State) : (takeInput s).optionReg = s.optionReg := rfl
@[simp] theorem takeInput_tmr0 (s : State) : (takeInput s).tmr0 = s.tmr0 := rfl
@[simp] theorem takeInput_wdt (s : State) : (takeInput s).wdt = s.wdt := rfl
@[simp] theorem takeInput_wdtps (s : State) : (takeInput s).wdtps = s.wdtps := rfl
@[simp] theorem takeInput_t0ps (s : State) : (takeInput s).t0ps = s.t0ps := rfl
@[simp] theorem takeInput_sleeping (s : State) : (takeInput s).sleeping = s.sleeping := rfl
@[simp] theorem takeInput_ram (s : State) : (takeInput s).ram = s.ram := rfl
@[simp] theorem takeInput_latch (s : State) : (takeInput s).latch = s.latch := rfl
@[simp] theorem takeInput_pins (s : State) : (takeInput s).pins = (currentInput s).pins.foldl (fun m e => Memory.write none m e.1 e.2) s.pins := rfl
@[simp] theorem takeInput_conds (s : State) : (takeInput s).conds = (currentInput s).conds.foldl addCond s.conds := rfl
@[simp] theorem takeInput_inputs (s : State) : (takeInput s).inputs = s.inputs.tail := rfl
@[simp] theorem takeInput_draws (s : State) : (takeInput s).draws = s.draws := rfl
@[simp] theorem takeInput_epoch (s : State) : (takeInput s).epoch = s.epoch := rfl

end Sys2Proof.Machine
end

