-- ==== Sys2Proof/Laws/Ops.lean ====
section
/-! SUPPORT. For each shared operation, once, everything it can do; and which parts of a state decide what a file address
selects. -/

namespace Sys2Proof.Machine

/-! ### What a file address selects -/

/-- The register f selects depends on the parameters, IRP, FSR and RP1:RP0 alone. -/
theorem fileReg_congr {s t : State} (hp : t.params = s.params) (hi : t.irp = s.irp) (hf : t.fsr = s.fsr) (hr : t.rp = s.rp)
    (f : FileAddr) : fileReg t f = fileReg s f := by
  simp [fileReg, dataAddress, hp, hi, hf, hr]

@[simp] theorem fileReg_setPc (s : State) (a : ProgAddr) (f : FileAddr) : fileReg (s.setPc a) f = fileReg s f := rfl
@[simp] theorem fileReg_advance (s : State) (f : FileAddr) : fileReg s.advance f = fileReg s f := rfl
@[simp] theorem fileReg_setW (s : State) (v : Byte) (f : FileAddr) : fileReg (s.setW v) f = fileReg s f := rfl
@[simp] theorem fileReg_setFlags (s : State) (fw : FlagWrite) (f : FileAddr) : fileReg (s.setFlags fw) f = fileReg s f := rfl
@[simp] theorem fileReg_takeInput (s : State) (f : FileAddr) : fileReg (takeInput s) f = fileReg s f := rfl

/-- A read changes nothing but the conditions and the draws. -/
theorem afterRead_eq (r : FileReg) (s : State) :
    afterRead r s = { s with conds := (afterRead r s).conds, draws := (afterRead r s).draws } := by
  cases r <;> rfl

@[simp] theorem afterRead_params (r : FileReg) (s : State) : (afterRead r s).params = s.params := by cases r <;> rfl
@[simp] theorem afterRead_prog (r : FileReg) (s : State) : (afterRead r s).prog = s.prog := by cases r <;> rfl
@[simp] theorem afterRead_w (r : FileReg) (s : State) : (afterRead r s).w = s.w := by cases r <;> rfl
@[simp] theorem afterRead_pc (r : FileReg) (s : State) : (afterRead r s).pc = s.pc := by cases r <;> rfl
@[simp] theorem afterRead_stk (r : FileReg) (s : State) : (afterRead r s).stk = s.stk := by cases r <;> rfl
@[simp] theorem afterRead_c (r : FileReg) (s : State) : (afterRead r s).c = s.c := by cases r <;> rfl
@[simp] theorem afterRead_dc (r : FileReg) (s : State) : (afterRead r s).dc = s.dc := by cases r <;> rfl
@[simp] theorem afterRead_z (r : FileReg) (s : State) : (afterRead r s).z = s.z := by cases r <;> rfl
@[simp] theorem afterRead_nTO (r : FileReg) (s : State) : (afterRead r s).nTO = s.nTO := by cases r <;> rfl
@[simp] theorem afterRead_nPD (r : FileReg) (s : State) : (afterRead r s).nPD = s.nPD := by cases r <;> rfl
@[simp] theorem afterRead_irp (r : FileReg) (s : State) : (afterRead r s).irp = s.irp := by cases r <;> rfl
@[simp] theorem afterRead_rp (r : FileReg) (s : State) : (afterRead r s).rp = s.rp := by cases r <;> rfl
@[simp] theorem afterRead_pclath (r : FileReg) (s : State) : (afterRead r s).pclath = s.pclath := by cases r <;> rfl
@[simp] theorem afterRead_gie (r : FileReg) (s : State) : (afterRead r s).gie = s.gie := by cases r <;> rfl
@[simp] theorem afterRead_intcon (r : FileReg) (s : State) : (afterRead r s).intcon = s.intcon := by cases r <;> rfl
@[simp] theorem afterRead_fsr (r : FileReg) (s : State) : (afterRead r s).fsr = s.fsr := by cases r <;> rfl
@[simp] theorem afterRead_optionReg (r : FileReg) (s : State) : (afterRead r s).optionReg = s.optionReg := by cases r <;> rfl
@[simp] theorem afterRead_tmr0 (r : FileReg) (s : State) : (afterRead r s).tmr0 = s.tmr0 := by cases r <;> rfl
@[simp] theorem afterRead_wdt (r : FileReg) (s : State) : (afterRead r s).wdt = s.wdt := by cases r <;> rfl
@[simp] theorem afterRead_wdtps (r : FileReg) (s : State) : (afterRead r s).wdtps = s.wdtps := by cases r <;> rfl
@[simp] theorem afterRead_t0ps (r : FileReg) (s : State) : (afterRead r s).t0ps = s.t0ps := by cases r <;> rfl
@[simp] theorem afterRead_sleeping (r : FileReg) (s : State) : (afterRead r s).sleeping = s.sleeping := by cases r <;> rfl
@[simp] theorem afterRead_ram (r : FileReg) (s : State) : (afterRead r s).ram = s.ram := by cases r <;> rfl
@[simp] theorem afterRead_latch (r : FileReg) (s : State) : (afterRead r s).latch = s.latch := by cases r <;> rfl
@[simp] theorem afterRead_pins (r : FileReg) (s : State) : (afterRead r s).pins = s.pins := by cases r <;> rfl
@[simp] theorem afterRead_inputs (r : FileReg) (s : State) : (afterRead r s).inputs = s.inputs := by cases r <;> rfl
@[simp] theorem afterRead_epoch (r : FileReg) (s : State) : (afterRead r s).epoch = s.epoch := by cases r <;> rfl

@[simp] theorem fileReg_afterRead (r : FileReg) (s : State) (f : FileAddr) : fileReg (afterRead r s) f = fileReg s f := by
  rw [afterRead_eq]; rfl

/-! ### Bits of the byte views -/

/-- The bits of STATUS, from C up to IRP. -/
theorem statusByte_getLsbD (s : State) :
    (statusByte s).getLsbD 0 = s.c ∧ (statusByte s).getLsbD 1 = s.dc ∧ (statusByte s).getLsbD 2 = s.z
      ∧ (statusByte s).getLsbD 3 = s.nPD ∧ (statusByte s).getLsbD 4 = s.nTO ∧ (statusByte s).getLsbD 5 = s.rp.getLsbD 0
      ∧ (statusByte s).getLsbD 6 = s.rp.getLsbD 1 ∧ (statusByte s).getLsbD 7 = s.irp := by
  simp only [statusByte, BitVec.getLsbD_append]
  refine ⟨?_, ?_, ?_, ?_, ?_, ?_, ?_, ?_⟩ <;> simp

/-- The byte with bit b alone set. -/
theorem bitMask_getLsbD (b : BitNum) (n : Nat) (hn : n < 8) : (bitMask b).getLsbD n = decide (n = b.toNat) := by
  have hb := b.isLt
  simp only [bitMask]
  generalize b.toNat = m at *
  interval_cases n <;> interval_cases m <;> rfl

/-! ### File accesses -/

/-- A read answers exactly when RegMap defines the register, with its value and the state after the read. -/
theorem readFile_eq_ok {f : FileAddr} {s t : State} {v : Byte} (h : readFile f s = .ok (v, t)) :
    ∃ r, fileReg s f = some r ∧ v = readValue r s ∧ t = afterRead r s := by
  unfold readFile at h
  cases hr : fileReg s f with
  | none => simp [hr] at h
  | some r => simp [hr] at h; exact ⟨r, rfl, h.1.symm, h.2.symm⟩

theorem readFile_of_some {f : FileAddr} {s : State} {r : FileReg} (h : fileReg s f = some r) :
    readFile f s = .ok (readValue r s, afterRead r s) := by simp [readFile, h]

theorem readFile_of_none {f : FileAddr} {s : State} (h : fileReg s f = none) :
    readFile f s = .error .unmodelledRegister := by simp [readFile, h]

/-- A write answers exactly when RegMap defines the register. -/
theorem writeFile_of_some {masked : Bool} {f : FileAddr} {v : Byte} {s : State} {r : FileReg} (h : fileReg s f = some r) :
    writeFile masked f v s = .ok (writeReg masked r v s) := by simp [writeFile, h]

theorem writeFile_of_none {masked : Bool} {f : FileAddr} {v : Byte} {s : State} (h : fileReg s f = none) :
    writeFile masked f v s = .error .unmodelledRegister := by simp [writeFile, h]

/-! What a write of a register leaves alone, whatever the register. -/

@[simp] theorem writeReg_params (masked : Bool) (r : FileReg) (v : Byte) (s : State) :
    (writeReg masked r v s).params = s.params := by cases r <;> rfl
@[simp] theorem writeReg_prog (masked : Bool) (r : FileReg) (v : Byte) (s : State) :
    (writeReg masked r v s).prog = s.prog := by cases r <;> rfl
@[simp] theorem writeReg_w (masked : Bool) (r : FileReg) (v : Byte) (s : State) :
    (writeReg masked r v s).w = s.w := by cases r <;> rfl
@[simp] theorem writeReg_stk (masked : Bool) (r : FileReg) (v : Byte) (s : State) :
    (writeReg masked r v s).stk = s.stk := by cases r <;> rfl
@[simp] theorem writeReg_nTO (masked : Bool) (r : FileReg) (v : Byte) (s : State) :
    (writeReg masked r v s).nTO = s.nTO := by cases r <;> rfl
@[simp] theorem writeReg_nPD (masked : Bool) (r : FileReg) (v : Byte) (s : State) :
    (writeReg masked r v s).nPD = s.nPD := by cases r <;> rfl
@[simp] theorem writeReg_wdt (masked : Bool) (r : FileReg) (v : Byte) (s : State) :
    (writeReg masked r v s).wdt = s.wdt := by cases r <;> rfl
@[simp] theorem writeReg_wdtps (masked : Bool) (r : FileReg) (v : Byte) (s : State) :
    (writeReg masked r v s).wdtps = s.wdtps := by cases r <;> rfl
@[simp] theorem writeReg_sleeping (masked : Bool) (r : FileReg) (v : Byte) (s : State) :
    (writeReg masked r v s).sleeping = s.sleeping := by cases r <;> rfl
@[simp] theorem writeReg_pins (masked : Bool) (r : FileReg) (v : Byte) (s : State) :
    (writeReg masked r v s).pins = s.pins := by cases r <;> rfl
@[simp] theorem writeReg_conds (masked : Bool) (r : FileReg) (v : Byte) (s : State) :
    (writeReg masked r v s).conds = s.conds := by cases r <;> rfl
@[simp] theorem writeReg_inputs (masked : Bool) (r : FileReg) (v : Byte) (s : State) :
    (writeReg masked r v s).inputs = s.inputs := by cases r <;> rfl
@[simp] theorem writeReg_draws (masked : Bool) (r : FileReg) (v : Byte) (s : State) :
    (writeReg masked r v s).draws = s.draws := by cases r <;> rfl
@[simp] theorem writeReg_epoch (masked : Bool) (r : FileReg) (v : Byte) (s : State) :
    (writeReg masked r v s).epoch = s.epoch := by cases r <;> rfl

/-- What a write of a register leaves alone when it is a write of another register. -/
theorem writeReg_other (masked : Bool) (r : FileReg) (v : Byte) (s : State) :
    (r ≠ .pcl → (writeReg masked r v s).pc = s.pc)
      ∧ (r ≠ .status → (writeReg masked r v s).c = s.c ∧ (writeReg masked r v s).dc = s.dc ∧ (writeReg masked r v s).z = s.z
          ∧ (writeReg masked r v s).irp = s.irp ∧ (writeReg masked r v s).rp = s.rp)
      ∧ (r ≠ .pclath → (writeReg masked r v s).pclath = s.pclath) ∧ (r ≠ .fsr → (writeReg masked r v s).fsr = s.fsr)
      ∧ (r ≠ .option → (writeReg masked r v s).optionReg = s.optionReg)
      ∧ (r ≠ .intcon → (writeReg masked r v s).intcon = s.intcon ∧ (writeReg masked r v s).gie = s.gie)
      ∧ (r ≠ .tmr0 → (writeReg masked r v s).tmr0 = s.tmr0 ∧ (writeReg masked r v s).t0ps = s.t0ps)
      ∧ ((∀ a, r ≠ .storage a) → (writeReg masked r v s).ram = s.ram)
      ∧ ((∀ a, r ≠ .port a) → (writeReg masked r v s).latch = s.latch) := by
  cases r <;> simp [writeReg, State.setPc, writeStatus, writeTmr0, storageWrite]

/-- A masked write, of any register, leaves C, DC and Z alone. -/
theorem writeReg_masked (r : FileReg) (v : Byte) (s : State) :
    (writeReg true r v s).c = s.c ∧ (writeReg true r v s).dc = s.dc ∧ (writeReg true r v s).z = s.z := by
  cases r <;> exact ⟨rfl, rfl, rfl⟩

/-- What is read at a storage address after another address was written, or the value written. -/
theorem storageRead_storageWrite (s : State) (a b : Nat) (v : Byte) :
    storageRead (storageWrite s a v) b = if b = a then v else storageRead s b := by
  unfold storageRead
  by_cases hb : b = a <;> simp [hb]

/-! ### The return stack -/

/-- A push that answers: the stack was not full, and the value is on top. -/
theorem push_eq_ok {s t : State} {v : ProgAddr} (h : push s v = .ok t) :
    s.stk.length < s.params.stackDepth ∧ t = { s with stk := v :: s.stk } := by
  unfold push at h
  split at h
  · next hl => exact ⟨hl, by simpa using h.symm⟩
  · simp at h

/-- A push refuses only on a full stack, and as StackOverflow. -/
theorem push_eq_error {s : State} {v : ProgAddr} {r : Refusal} (h : push s v = .error r) :
    s.params.stackDepth ≤ s.stk.length ∧ r = .stackOverflow := by
  unfold push at h
  split at h
  · simp at h
  · next hl => exact ⟨Nat.le_of_not_lt hl, by simpa using h.symm⟩

/-- A pop to pc that answers: the stack was not empty, and its top is the new pc. -/
theorem popPc_eq_ok {s t : State} (h : popPc s = .ok t) :
    ∃ a rest, s.stk = a :: rest ∧ t = { s with stk := rest, pc := a } := by
  unfold popPc pop at h
  cases hs : s.stk with
  | nil => simp [hs] at h
  | cons a rest => simp [hs] at h; exact ⟨a, rest, rfl, h.symm⟩

/-- A pop refuses only on an empty stack, and as StackUnderflow. -/
theorem popPc_eq_error {s : State} {r : Refusal} (h : popPc s = .error r) : s.stk = [] ∧ r = .stackUnderflow := by
  unfold popPc pop at h
  cases hs : s.stk with
  | nil => simp [hs] at h; exact ⟨rfl, h.symm⟩
  | cons a rest => simp [hs] at h

theorem popPc_of_cons {s : State} {a : ProgAddr} {rest : List ProgAddr} (h : s.stk = a :: rest) :
    popPc s = .ok { s with stk := rest, pc := a } := by simp [popPc, pop, h, State.setPc]

theorem popPc_of_nil {s : State} (h : s.stk = []) : popPc s = .error .stackUnderflow := by simp [popPc, pop, h]

/-- Interrupt entry that answers: a push of pc, GIE cleared, pc at the vector, and nothing else. -/
theorem takeInterrupt_eq_ok {s t : State} (h : takeInterrupt s = .ok t) :
    s.stk.length < s.params.stackDepth ∧ t = { s with stk := s.pc :: s.stk, gie := false, pc := s.params.intVector } := by
  unfold takeInterrupt at h
  cases hp : push s s.pc with
  | error r => simp [hp] at h
  | ok u =>
    obtain ⟨hl, rfl⟩ := push_eq_ok hp
    simp [hp] at h
    exact ⟨hl, h.symm⟩

/-- Return from interrupt that answers: a pop to pc, GIE set, and nothing else. -/
theorem returnFromInterrupt_eq_ok {s t : State} (h : returnFromInterrupt s = .ok t) :
    ∃ a rest, s.stk = a :: rest ∧ t = { s with stk := rest, pc := a, gie := true } := by
  unfold returnFromInterrupt at h
  cases hp : popPc s with
  | error r => simp [hp] at h
  | ok u =>
    obtain ⟨a, rest, hs, rfl⟩ := popPc_eq_ok hp
    simp [hp] at h
    exact ⟨a, rest, hs, h.symm⟩

/-! ### Operand forms -/

@[simp] theorem defaultRegMap_read (f : FileAddr) (inp : StepInput) (s : State) :
    defaultRegMap.read f inp s = readFile f s := rfl
@[simp] theorem defaultRegMap_write (masked : Bool) (f : FileAddr) (v : Byte) (s : State) :
    defaultRegMap.write masked f v s = writeFile masked f v s := rfl

/-- A read-modify-write where the default RegMap defines the register: the whole of what it does. -/
theorem fileOp_of_some {inp : StepInput} {op : Byte → Bool → Byte → AluOut} {f : FileAddr} {d : Dest} {s : State} {r : FileReg}
    (h : fileReg s f = some r) :
    fileOp defaultRegMap inp op f d s = .ok (match d with
      | .w => (((afterRead r s).setFlags (op s.w s.c (readValue r s)).flags).advance).setW (op s.w s.c (readValue r s)).value
      | .file => writeReg (op s.w s.c (readValue r s)).flags.listsAny r (op s.w s.c (readValue r s)).value
          (((afterRead r s).setFlags (op s.w s.c (readValue r s)).flags).advance)) := by
  cases d <;> simp [fileOp, readFile_of_some h, writeDest, writeFile, h]

theorem fileOp_of_none {inp : StepInput} {op : Byte → Bool → Byte → AluOut} {f : FileAddr} {d : Dest} {s : State}
    (h : fileReg s f = none) : fileOp defaultRegMap inp op f d s = .error .unmodelledRegister := by
  simp [fileOp, readFile_of_none h]

/-- The status bits an instruction lists may be written before or after a masked write of a register: it leaves C, DC and Z alone. -/
theorem writeReg_setFlags (r : FileReg) (v : Byte) (s : State) (z : Bool) :
    (writeReg true r v s).setFlags { z := some z } = writeReg true r v (s.setFlags { z := some z }) := by cases r <;> rfl

/-- CLRF's form where the default RegMap defines the register. -/
theorem clearOp_of_some {inp : StepInput} {f : FileAddr} {s : State} {r : FileReg} (h : fileReg s f = some r) :
    clearOp defaultRegMap inp f s = .ok ((writeReg true r 0x00#8 (afterRead r s).advance).setFlags { z := some true }) := by
  simp [clearOp, readFile_of_some h, writeFile, h]

theorem clearOp_of_none {inp : StepInput} {f : FileAddr} {s : State} (h : fileReg s f = none) :
    clearOp defaultRegMap inp f s = .error .unmodelledRegister := by simp [clearOp, readFile_of_none h]

/-- DECFSZ's and INCFSZ's form where the default RegMap defines the register. -/
theorem fileSkipOp_of_some {inp : StepInput} {op : Byte → Byte} {f : FileAddr} {d : Dest} {s : State} {r : FileReg}
    (h : fileReg s f = some r) :
    fileSkipOp defaultRegMap inp op f d s = .ok (skipIf (zeroFlag (op (readValue r s))) s.pc (match d with
      | .w => ((afterRead r s).advance).setW (op (readValue r s))
      | .file => writeReg false r (op (readValue r s)) ((afterRead r s).advance))) := by
  cases d <;> simp [fileSkipOp, readFile_of_some h, writeDest, writeFile, h]

theorem fileSkipOp_of_none {inp : StepInput} {op : Byte → Byte} {f : FileAddr} {d : Dest} {s : State} (h : fileReg s f = none) :
    fileSkipOp defaultRegMap inp op f d s = .error .unmodelledRegister := by simp [fileSkipOp, readFile_of_none h]

/-- BTFSC's and BTFSS's form where the default RegMap defines the register. -/
theorem bitTestOp_of_some {inp : StepInput} {sense : Bool} {f : FileAddr} {b : BitNum} {s : State} {r : FileReg}
    (h : fileReg s f = some r) :
    bitTestOp defaultRegMap inp sense f b s
      = .ok (skipIf ((readValue r s).getLsbD b.toNat == sense) s.pc ((afterRead r s).advance)) := by
  simp [bitTestOp, readFile_of_some h]

theorem bitTestOp_of_none {inp : StepInput} {sense : Bool} {f : FileAddr} {b : BitNum} {s : State} (h : fileReg s f = none) :
    bitTestOp defaultRegMap inp sense f b s = .error .unmodelledRegister := by simp [bitTestOp, readFile_of_none h]

/-! ### Operand forms under any RegMap -/

/-- A destination under any RegMap: W, or one write of f. -/
@[simp] theorem writeDest_w (m : RegMap) (masked : Bool) (f : FileAddr) (v : Byte) (s : State) :
    writeDest m masked .w f v s = .ok (s.setW v) := rfl
@[simp] theorem writeDest_file (m : RegMap) (masked : Bool) (f : FileAddr) (v : Byte) (s : State) :
    writeDest m masked .file f v s = m.write masked f v s := rfl

/-- What a read that refuses, or answers, makes of the three forms. -/
theorem fileOp_of_error {m : RegMap} {inp : StepInput} {op : Byte → Bool → Byte → AluOut} {f : FileAddr} {d : Dest} {s : State}
    {r : Refusal} (h : m.read f inp s = .error r) : fileOp m inp op f d s = .error r := by simp [fileOp, h]

theorem fileOp_of_ok {m : RegMap} {inp : StepInput} {op : Byte → Bool → Byte → AluOut} {f : FileAddr} {d : Dest} {s t : State}
    {v : Byte} (h : m.read f inp s = .ok (v, t)) :
    fileOp m inp op f d s
      = writeDest m (op t.w t.c v).flags.listsAny d f (op t.w t.c v).value ((t.setFlags (op t.w t.c v).flags).advance) := by
  simp [fileOp, h]

theorem bitTestOp_of_ok {m : RegMap} {inp : StepInput} {sense : Bool} {f : FileAddr} {b : BitNum} {s t : State} {v : Byte}
    (h : m.read f inp s = .ok (v, t)) :
    bitTestOp m inp sense f b s = .ok (skipIf (v.getLsbD b.toNat == sense) s.pc t.advance) := by simp [bitTestOp, h]

@[simp] theorem finish_ok (s : State) : finish (.ok s) = .next s := rfl
@[simp] theorem finish_error (r : Refusal) : finish (.error r) = .refused r := rfl

theorem finish_eq_next {x : Except Refusal State} {t : State} (h : finish x = .next t) : x = .ok t := by
  cases x with
  | error r => simp at h
  | ok s => simp at h; rw [h]

/-! ### The boundary and the step -/

@[simp] theorem defaultPlatform_regMap : defaultPlatform.regMap = defaultRegMap := rfl
@[simp] theorem defaultPlatform_intReq : defaultPlatform.intReq = intReq := rfl
@[simp] theorem defaultPlatform_wakeEvent : defaultPlatform.wakeEvent = wakeEvent := rfl

/-- The last choice of a boundary, when it takes an interrupt. -/
theorem interruptOrRun_done {p : Platform} {inp : StepInput} {s : State} {o : Host.Outcome State Fault Refusal}
    (h : interruptOrRun p inp s = .done o) : s.gie = true ∧ p.intReq inp s = true ∧ o = finish (takeInterrupt s) := by
  unfold interruptOrRun at h
  split at h
  · next hg => exact ⟨(Bool.and_eq_true_iff.1 hg).1, (Bool.and_eq_true_iff.1 hg).2, by injection h with h; exact h.symm⟩
  · cases h

/-- The last choice of a boundary, when it runs the instruction. -/
theorem interruptOrRun_run {p : Platform} {inp : StepInput} {s u : State} (h : interruptOrRun p inp s = .run u) :
    (s.gie && p.intReq inp s) = false ∧ u = s := by
  unfold interruptOrRun at h
  split at h
  · cases h
  · next hg => exact ⟨by simpa using hg, by injection h with h; exact h.symm⟩

theorem interruptOrRun_of_false {p : Platform} {inp : StepInput} {s : State} (h : (s.gie && p.intReq inp s) = false) :
    interruptOrRun p inp s = .run s := by simp [interruptOrRun, h]

theorem interruptOrRun_of_true {p : Platform} {inp : StepInput} {s : State} (h : (s.gie && p.intReq inp s) = true) :
    interruptOrRun p inp s = .done (finish (takeInterrupt s)) := by simp [interruptOrRun, h]

/-- Where no event comes first, the boundary runs the instruction. -/
theorem atBoundary_of_noEvent {s : State} (hs : s.sleeping = false) (hr : (currentInput s).reset = none)
    (hw : watchdogTimeOut (currentInput s) s = false) (hi : (s.gie && intReq (currentInput s) (takeInput s)) = false) :
    atBoundary s = .run (takeInput s) := by
  have hw' : watchdogTimeOut (currentInput s) (takeInput s) = false := hw
  have hi' : ((takeInput s).gie && intReq (currentInput s) (takeInput s)) = false := hi
  simp only [atBoundary, boundaryOn, hs, runningBoundary, hr, hw', interruptOrRun_of_false (p := defaultPlatform) hi']
  simp

/-- What a step comes to, from what its boundary comes to, for any platform and any way of running an instruction. -/
theorem stepWith_of_done {p : Platform} {run : StepInput → Instr → State → Host.Outcome State Fault Refusal} {s : State}
    {o : Host.Outcome State Fault Refusal} (h : boundaryOn p s = .done o) : stepWith p run s = o := by simp [stepWith, h]

theorem stepWith_of_run {p : Platform} {run : StepInput → Instr → State → Host.Outcome State Fault Refusal} {s t : State} {i : Instr}
    (h : boundaryOn p s = .run t) (hd : decode (progRead t t.pc) = some i) : stepWith p run s = run (currentInput s) i t := by
  simp [stepWith, h, fetch, hd]

theorem stepWith_of_unassigned {p : Platform} {run : StepInput → Instr → State → Host.Outcome State Fault Refusal} {s t : State}
    (h : boundaryOn p s = .run t) (hd : decode (progRead t t.pc) = none) : stepWith p run s = .refused .reservedOpcode := by
  simp [stepWith, h, fetch, hd]

/-- A step that answers came from the boundary alone, or ran a decoded instruction. -/
theorem step_cases {s t : State} (h : step s = .next t) :
    atBoundary s = .done (.next t) ∨ ∃ u i, atBoundary s = .run u ∧ decode (progRead u u.pc) = some i ∧ exec i u = .next t := by
  unfold step stepWith at h
  change (match atBoundary s with | .done o => o | .run t => match fetch t with | .error r => .refused r | .ok i => exec i t) = _ at h
  cases hb : atBoundary s with
  | done o => simp [hb] at h; exact .inl (by rw [h])
  | run u =>
    simp only [hb, fetch] at h
    cases hd : decode (progRead u u.pc) with
    | none => simp [hd] at h
    | some i => simp [hd] at h; exact .inr ⟨u, i, rfl, hd, h⟩

/-- A step that ends at the boundary was a reset, a Watchdog reset, a processor staying asleep, an interrupt entry, or an
interrupt entry of a processor a Watchdog time-out has woken. -/
theorem atBoundary_done {s t : State} (h : atBoundary s = .done (.next t)) :
    (∃ kind, (currentInput s).reset = some kind ∧ t = applyReset kind (takeInput s))
      ∨ (s.sleeping = false ∧ watchdogTimeOut (currentInput s) s = true ∧ t = resetWatchdog (takeInput s))
      ∨ (s.sleeping = true ∧ t = takeInput s)
      ∨ (s.gie = true ∧ ∃ u, ((s.sleeping = false ∧ u = takeInput s)
            ∨ (s.sleeping = true ∧ watchdogTimeOut (currentInput s) s = true
                ∧ u = { takeInput s with sleeping := false, nTO := false }))
          ∧ takeInterrupt u = .ok t) := by
  unfold atBoundary boundaryOn at h
  split at h
  · next hs =>
    have hs : s.sleeping = true := by simpa using hs
    simp only [sleepingBoundary, defaultPlatform_wakeEvent, wakeEvent] at h
    cases hr : (currentInput s).reset with
    | some kind => simp [hr] at h; exact .inl ⟨kind, rfl, h.symm⟩
    | none =>
      simp only [hr] at h
      by_cases hw : watchdogTimeOut (currentInput s) (takeInput s) = true
      · simp only [hw, if_true] at h
        obtain ⟨hg, _, ho⟩ := interruptOrRun_done h
        exact .inr (.inr (.inr ⟨hg, _, .inr ⟨hs, hw, rfl⟩, finish_eq_next ho.symm⟩))
      · by_cases hk : (currentInput s).wake = true
        · simp [hw, hk] at h
        · simp [hw, hk] at h; exact .inr (.inr (.inl ⟨hs, h.symm⟩))
  · next hs =>
    have hs : s.sleeping = false := by simpa using hs
    unfold runningBoundary at h
    cases hr : (currentInput s).reset with
    | some kind => simp [hr] at h; exact .inl ⟨kind, rfl, h.symm⟩
    | none =>
      simp only [hr] at h
      by_cases hw : watchdogTimeOut (currentInput s) (takeInput s) = true
      · simp [hw] at h; exact .inr (.inl ⟨hs, hw, h.symm⟩)
      · rw [if_neg hw] at h
        obtain ⟨hg, _, ho⟩ := interruptOrRun_done h
        exact .inr (.inr (.inr ⟨hg, _, .inl ⟨hs, rfl⟩, finish_eq_next ho.symm⟩))

/-- A boundary that runs an instruction: at the state with the input taken in, awake, woken by an event, or woken by a
Watchdog time-out. -/
theorem atBoundary_run {s u : State} (h : atBoundary s = .run u) :
    (s.sleeping = false ∧ u = takeInput s)
      ∨ (s.sleeping = true ∧ (currentInput s).wake = true ∧ u = { takeInput s with sleeping := false })
      ∨ (s.sleeping = true ∧ watchdogTimeOut (currentInput s) s = true
          ∧ u = { takeInput s with sleeping := false, nTO := false }) := by
  unfold atBoundary boundaryOn at h
  split at h
  · next hs =>
    have hs : s.sleeping = true := by simpa using hs
    simp only [sleepingBoundary, defaultPlatform_wakeEvent, wakeEvent] at h
    cases hr : (currentInput s).reset with
    | some kind => simp [hr] at h
    | none =>
      simp only [hr] at h
      by_cases hw : watchdogTimeOut (currentInput s) (takeInput s) = true
      · simp only [hw, if_true] at h
        exact .inr (.inr ⟨hs, hw, (interruptOrRun_run h).2⟩)
      · by_cases hk : (currentInput s).wake = true
        · simp [hw, hk] at h; exact .inr (.inl ⟨hs, hk, h.symm⟩)
        · simp [hw, hk] at h
  · next hs =>
    have hs : s.sleeping = false := by simpa using hs
    unfold runningBoundary at h
    cases hr : (currentInput s).reset with
    | some kind => simp [hr] at h
    | none =>
      simp only [hr] at h
      by_cases hw : watchdogTimeOut (currentInput s) (takeInput s) = true
      · simp [hw] at h
      · rw [if_neg hw] at h
        exact .inl ⟨hs, (interruptOrRun_run h).2⟩

end Sys2Proof.Machine
end

