-- ==== Sys2Proof/Laws/Exec.lean ====
section
/-! SUPPORT. What an instruction can do when it has a next state, once for all instructions that name a file register: the three
shapes of such a next state, tied to the tables of Machine/Effects.lean; and what a step's input can do. -/

namespace Sys2Proof.Machine

theorem fileOp_eq_next {inp : StepInput} {op : Byte → Bool → Byte → AluOut} {f : FileAddr} {d : Dest} {s t : State}
    (h : finish (fileOp defaultRegMap inp op f d s) = .next t) :
    ∃ r, fileReg s f = some r
      ∧ t = stored d (op s.w s.c (readValue r s)).flags.listsAny r (op s.w s.c (readValue r s)).value
          (((afterRead r s).setFlags (op s.w s.c (readValue r s)).flags).advance) := by
  cases hr : fileReg s f with
  | none => simp [fileOp_of_none hr] at h
  | some r =>
    rw [fileOp_of_some hr] at h
    simp at h
    exact ⟨r, rfl, by cases d <;> simp_all [stored]⟩

theorem clearOp_eq_next {inp : StepInput} {f : FileAddr} {s t : State} (h : finish (clearOp defaultRegMap inp f s) = .next t) :
    ∃ r, fileReg s f = some r
      ∧ t = stored .file true r 0x00#8 (((afterRead r s).setFlags { z := some true }).advance) := by
  cases hr : fileReg s f with
  | none => simp [clearOp_of_none hr] at h
  | some r =>
    rw [clearOp_of_some hr] at h
    simp at h
    exact ⟨r, rfl, by rw [← h, writeReg_setFlags]; rfl⟩

theorem fileSkipOp_eq_next {inp : StepInput} {op : Byte → Byte} {f : FileAddr} {d : Dest} {s t : State}
    (h : finish (fileSkipOp defaultRegMap inp op f d s) = .next t) :
    ∃ r, fileReg s f = some r
      ∧ t = skipIf (zeroFlag (op (readValue r s))) s.pc (stored d false r (op (readValue r s)) ((afterRead r s).advance)) := by
  cases hr : fileReg s f with
  | none => simp [fileSkipOp_of_none hr] at h
  | some r =>
    rw [fileSkipOp_of_some hr] at h
    simp at h
    exact ⟨r, rfl, by cases d <;> simp_all [stored]⟩

theorem bitTestOp_eq_next {inp : StepInput} {sense : Bool} {f : FileAddr} {b : BitNum} {s t : State}
    (h : finish (bitTestOp defaultRegMap inp sense f b s) = .next t) :
    ∃ r, fileReg s f = some r
      ∧ t = skipIf ((readValue r s).getLsbD b.toNat == sense) s.pc ((afterRead r s).advance) := by
  cases hr : fileReg s f with
  | none => simp [bitTestOp_of_none hr] at h
  | some r =>
    rw [bitTestOp_of_some hr] at h
    simp at h
    exact ⟨r, rfl, h.symm⟩

/-- The shapes of the next state t of an instruction i at a state s. -/
inductive NextShape (i : Instr) (s t : State) : Prop where
  /-- one read, the listed status bits, one result to the destination (R65) -/
  | file (f : FileAddr) (d : Dest) (r : FileReg) (v : Byte) (fw : FlagWrite) (hn : i.fileNamed = some f)
      (hw : i.fileWritten = if d = .file then some f else none) (hW : i.writesW = decide (d = .w))
      (hr : fileReg s f = some r) (ht : t = stored d fw.listsAny r v (((afterRead r s).setFlags fw).advance))
      (hc : i.listsCarry = fw.c.isSome) (hd : i.listsDigitCarry = fw.dc.isSome) (hz : i.listsZero = fw.z.isSome)
      (hx : i.transfers = false) (hs : i.skips = false) (hth : testHolds i s = false) : NextShape i s t
  /-- DECFSZ and INCFSZ (R127, R129) -/
  | fileSkip (f : FileAddr) (d : Dest) (r : FileReg) (v : Byte) (hn : i.fileNamed = some f)
      (hw : i.fileWritten = if d = .file then some f else none) (hW : i.writesW = decide (d = .w))
      (hr : fileReg s f = some r)
      (ht : t = skipIf (testHolds i s) s.pc (stored d false r v ((afterRead r s).advance)))
      (hc : i.listsCarry = false) (hd : i.listsDigitCarry = false) (hz : i.listsZero = false)
      (hx : i.transfers = false) (hs : i.skips = true) : NextShape i s t
  /-- BTFSC and BTFSS (R153, R154) -/
  | bitTest (f : FileAddr) (r : FileReg) (hn : i.fileNamed = some f) (hw : i.fileWritten = none) (hW : i.writesW = false)
      (hr : fileReg s f = some r) (ht : t = skipIf (testHolds i s) s.pc ((afterRead r s).advance))
      (hc : i.listsCarry = false) (hd : i.listsDigitCarry = false) (hz : i.listsZero = false)
      (hx : i.transfers = false) (hs : i.skips = true) : NextShape i s t
  /-- an instruction that names no file register -/
  | noFile (hn : i.fileNamed = none) (hw : i.fileWritten = none) (hs : i.skips = false) (hth : testHolds i s = false) :
      NextShape i s t

/-- Every next state of every instruction has one of the four shapes. -/
theorem exec_nextShape {i : Instr} {s t : State} (h : exec i s = .next t) : NextShape i s t := by
  cases i with
  | btfsc f b | btfss f b =>
    obtain ⟨r, hr, rfl⟩ := bitTestOp_eq_next h
    exact .bitTest f r rfl rfl rfl hr (by simp [testHolds, fileValue, hr]) rfl rfl rfl rfl rfl
  | decfsz f d | incfsz f d =>
    obtain ⟨r, hr, rfl⟩ := fileSkipOp_eq_next h
    exact .fileSkip f d r _ rfl (by cases d <;> rfl) rfl hr (by simp [testHolds, fileValue, hr]; rfl) rfl rfl rfl rfl rfl
  | bcf f b | bsf f b =>
    obtain ⟨r, hr, rfl⟩ := fileOp_eq_next h
    exact .file f .file r _ _ rfl rfl rfl hr rfl rfl rfl rfl rfl rfl rfl
  | clrf f =>
    obtain ⟨r, hr, rfl⟩ := clearOp_eq_next h
    exact .file f .file r _ { z := some true } rfl rfl rfl hr rfl rfl rfl rfl rfl rfl rfl
  | movwf f =>
    obtain ⟨r, hr, rfl⟩ := fileOp_eq_next h
    exact .file f .file r _ _ rfl rfl rfl hr rfl rfl rfl rfl rfl rfl rfl
  | addwf f d | andwf f d | comf f d | decf f d | incf f d | iorwf f d | movf f d | rlf f d | rrf f d | subwf f d
  | swapf f d | xorwf f d =>
    obtain ⟨r, hr, rfl⟩ := fileOp_eq_next h
    exact .file f d r _ _ rfl (by cases d <;> rfl) rfl hr rfl rfl rfl rfl rfl rfl rfl
  | _ => exact .noFile rfl rfl rfl rfl

/-- What an instruction that names no file register never changes, whichever it is: every special register but GIE, W, the status
bits, the Watchdog counts, pc, the return stack and Sleep mode; storage, latches and program memory. -/
theorem exec_noFile_keeps {i : Instr} {s t : State} (h : exec i s = .next t) (hn : i.fileNamed = none) :
    t = { s with
      w := t.w, pc := t.pc, stk := t.stk, c := t.c, dc := t.dc, z := t.z, nTO := t.nTO, nPD := t.nPD, gie := t.gie
      wdt := t.wdt, wdtps := t.wdtps, sleeping := t.sleeping } := by
  cases i <;> simp only [Instr.fileNamed, reduceCtorEq] at hn
  case call k =>
    simp only [exec, execCall] at h
    split at h
    · simp at h
    · next hp => obtain ⟨_, rfl⟩ := push_eq_ok hp; simp at h; subst h; rfl
  case ret => obtain ⟨a, rest, hs, rfl⟩ := popPc_eq_ok (finish_eq_next h); rfl
  case retlw => obtain ⟨a, rest, hs, rfl⟩ := popPc_eq_ok (finish_eq_next h); rfl
  case retfie => obtain ⟨a, rest, hs, rfl⟩ := returnFromInterrupt_eq_ok (finish_eq_next h); rfl
  all_goals injection h with h; subst h; rfl

/-! ### The events of a boundary, in the terms of the step's input -/

theorem watchdogTimeOut_iff (s : State) : watchdogTimeOut (currentInput s) s = true ↔ TimeOutRaised s := by
  simp [watchdogTimeOut, TimeOutRaised]

/-- The flags of the step's input are set in INTCON, and nothing else of INTCON changes. -/
theorem takeInput_intcon_getLsbD (s : State) (n : Nat) :
    (takeInput s).intcon.getLsbD n = (s.intcon.getLsbD n || (currentInput s).flags.getLsbD n) := by
  simp only [takeInput, BitVec.getLsbD_or, BitVec.getLsbD_setWidth]
  by_cases h : n < 7
  · simp [h]
  · simp [h, BitVec.getLsbD_of_ge (currentInput s).flags n (by omega)]

theorem intReq_takeInput_iff (s : State) : intReq (currentInput s) (takeInput s) = true ↔ InterruptRequested s := by
  simp only [intReq, takeInput_intcon_getLsbD, InterruptRequested, Bool.or_eq_true, Bool.and_eq_true,
    BitVec.getLsbD_of_ge (currentInput s).flags _ (show 3 ≤ 5 by decide),
    BitVec.getLsbD_of_ge (currentInput s).flags _ (show 3 ≤ 4 by decide),
    BitVec.getLsbD_of_ge (currentInput s).flags _ (show 3 ≤ 3 by decide),
    BitVec.getLsbD_of_ge (currentInput s).flags _ (show 3 ≤ 6 by decide)]
  simp [or_assoc]

/-- What is listed after a list of writes: the last value written there, or else what was there. -/
theorem Memory.read?_writes {α : Type} [DecidableEq α] (l m : List (Nat × α)) (a : Nat) :
    Memory.read? (l.foldl (fun m e => Memory.write none m e.1 e.2) m) a
      = (Memory.read? l.reverse a <|> Memory.read? m a) := by
  induction l using List.reverseRecOn with
  | nil => simp
  | append_singleton l e ih =>
    simp only [List.foldl_append, List.foldl_cons, List.foldl_nil, List.reverse_append, List.reverse_cons, List.reverse_nil,
      List.nil_append, List.cons_append, Memory.read?]
    by_cases h : a = e.1 <;> simp [h, ih]

/-- A condition is pending after an input exactly when it was, or has arisen. -/
theorem mem_addConds (l conds : List Nat) (a : Nat) : a ∈ l.foldl addCond conds ↔ a ∈ conds ∨ a ∈ l := by
  induction l generalizing conds with
  | nil => simp
  | cons b l ih =>
    rw [List.foldl_cons, ih]
    by_cases hb : b ∈ conds
    · simp [addCond, hb]; constructor
      · rintro (h | h) <;> simp [h]
      · rintro (h | rfl | h) <;> simp [*]
    · simp [addCond, hb]; tauto

/-! ### Loading a word commutes with everything an instruction does -/

theorem setPc_loadWord (s : State) (p a : ProgAddr) (x : Word) : (loadWord s a x).setPc p = loadWord (s.setPc p) a x := rfl
theorem advance_loadWord (s : State) (a : ProgAddr) (x : Word) : (loadWord s a x).advance = loadWord s.advance a x := rfl
theorem setW_loadWord (s : State) (v : Byte) (a : ProgAddr) (x : Word) : (loadWord s a x).setW v = loadWord (s.setW v) a x := rfl
theorem setFlags_loadWord (s : State) (fw : FlagWrite) (a : ProgAddr) (x : Word) :
    (loadWord s a x).setFlags fw = loadWord (s.setFlags fw) a x := rfl

theorem readValue_loadWord (r : FileReg) (s : State) (a : ProgAddr) (x : Word) :
    readValue r (loadWord s a x) = readValue r s := by cases r <;> rfl

theorem afterRead_loadWord (r : FileReg) (s : State) (a : ProgAddr) (x : Word) :
    afterRead r (loadWord s a x) = loadWord (afterRead r s) a x := by cases r <;> rfl

theorem writeReg_loadWord (masked : Bool) (r : FileReg) (v : Byte) (s : State) (a : ProgAddr) (x : Word) :
    writeReg masked r v (loadWord s a x) = loadWord (writeReg masked r v s) a x := by cases r <;> rfl

end Sys2Proof.Machine
end

