-- ==== Sys2Proof/Laws/PerInstr.lean ====
section
/-! SUPPORT. The statements made per instruction. AsmWellFormed: the statement an instruction prints as is well formed, whatever
its operands (spec 30_encoding.md R108). -/

namespace Sys2Proof.Laws.AsmWellFormed

/-- The statement the instruction prints as has a known mnemonic and operands in range. -/
def Statement (i : Instr) : Prop := i.wellFormed = true

/-- A statement whose mnemonic has the form and whose operands fit the form is well formed. -/
theorem of_form {line : AsmLine} {form : OperandForm} (hl : operandForms.lookup line.mnemonic = some form)
    (hr : operandsInRange form line.operands = true) : line.wellFormed = true := by
  simp only [AsmLine.wellFormed, hl, hr]

theorem file_le (f : FileAddr) : f.toNat ≤ 127 := Nat.le_of_lt_succ f.isLt
theorem dest_le (d : Dest) : d.number ≤ 1 := by cases d <;> decide
theorem bit_le (b : BitNum) : b.toNat ≤ 7 := Nat.le_of_lt_succ b.isLt
theorem literal_le (k : Byte) : k.toNat ≤ 255 := Nat.le_of_lt_succ k.isLt
theorem target_le (k : PageAddr) : k.toNat ≤ 2047 := Nat.le_of_lt_succ k.isLt

theorem fileDest_ok (f : FileAddr) (d : Dest) : operandsInRange .fileDest [f.toNat, d.number] = true := by
  simp only [operandsInRange, file_le, dest_le, decide_true, Bool.and_self]
theorem file_ok (f : FileAddr) : operandsInRange .file [f.toNat] = true := by simp only [operandsInRange, file_le, decide_true]
theorem fileBit_ok (f : FileAddr) (b : BitNum) : operandsInRange .fileBit [f.toNat, b.toNat] = true := by
  simp only [operandsInRange, file_le, bit_le, decide_true, Bool.and_self]
theorem literal_ok (k : Byte) : operandsInRange .literal [k.toNat] = true := by
  simp only [operandsInRange, literal_le, decide_true]
theorem target_ok (k : PageAddr) : operandsInRange .target [k.toNat] = true := by
  simp only [operandsInRange, target_le, decide_true]

theorem addwf (f : FileAddr) (d : Dest) : Statement (.addwf f d) := of_form rfl (fileDest_ok f d)
theorem andwf (f : FileAddr) (d : Dest) : Statement (.andwf f d) := of_form rfl (fileDest_ok f d)
theorem clrf (f : FileAddr) : Statement (.clrf f) := of_form rfl (file_ok f)
theorem clrw : Statement (.clrw) := of_form rfl rfl
theorem comf (f : FileAddr) (d : Dest) : Statement (.comf f d) := of_form rfl (fileDest_ok f d)
theorem decf (f : FileAddr) (d : Dest) : Statement (.decf f d) := of_form rfl (fileDest_ok f d)
theorem decfsz (f : FileAddr) (d : Dest) : Statement (.decfsz f d) := of_form rfl (fileDest_ok f d)
theorem incf (f : FileAddr) (d : Dest) : Statement (.incf f d) := of_form rfl (fileDest_ok f d)
theorem incfsz (f : FileAddr) (d : Dest) : Statement (.incfsz f d) := of_form rfl (fileDest_ok f d)
theorem iorwf (f : FileAddr) (d : Dest) : Statement (.iorwf f d) := of_form rfl (fileDest_ok f d)
theorem movf (f : FileAddr) (d : Dest) : Statement (.movf f d) := of_form rfl (fileDest_ok f d)
theorem movwf (f : FileAddr) : Statement (.movwf f) := of_form rfl (file_ok f)
theorem nop : Statement (.nop) := of_form rfl rfl
theorem rlf (f : FileAddr) (d : Dest) : Statement (.rlf f d) := of_form rfl (fileDest_ok f d)
theorem rrf (f : FileAddr) (d : Dest) : Statement (.rrf f d) := of_form rfl (fileDest_ok f d)
theorem subwf (f : FileAddr) (d : Dest) : Statement (.subwf f d) := of_form rfl (fileDest_ok f d)
theorem swapf (f : FileAddr) (d : Dest) : Statement (.swapf f d) := of_form rfl (fileDest_ok f d)
theorem xorwf (f : FileAddr) (d : Dest) : Statement (.xorwf f d) := of_form rfl (fileDest_ok f d)
theorem bcf (f : FileAddr) (b : BitNum) : Statement (.bcf f b) := of_form rfl (fileBit_ok f b)
theorem bsf (f : FileAddr) (b : BitNum) : Statement (.bsf f b) := of_form rfl (fileBit_ok f b)
theorem btfsc (f : FileAddr) (b : BitNum) : Statement (.btfsc f b) := of_form rfl (fileBit_ok f b)
theorem btfss (f : FileAddr) (b : BitNum) : Statement (.btfss f b) := of_form rfl (fileBit_ok f b)
theorem addlw (k : Byte) : Statement (.addlw k) := of_form rfl (literal_ok k)
theorem andlw (k : Byte) : Statement (.andlw k) := of_form rfl (literal_ok k)
theorem call (k : PageAddr) : Statement (.call k) := of_form rfl (target_ok k)
theorem clrwdt : Statement (.clrwdt) := of_form rfl rfl
theorem goto (k : PageAddr) : Statement (.goto k) := of_form rfl (target_ok k)
theorem iorlw (k : Byte) : Statement (.iorlw k) := of_form rfl (literal_ok k)
theorem movlw (k : Byte) : Statement (.movlw k) := of_form rfl (literal_ok k)
theorem retfie : Statement (.retfie) := of_form rfl rfl
theorem retlw (k : Byte) : Statement (.retlw k) := of_form rfl (literal_ok k)
theorem ret : Statement (.ret) := of_form rfl rfl
theorem sleep : Statement (.sleep) := of_form rfl rfl
theorem sublw (k : Byte) : Statement (.sublw k) := of_form rfl (literal_ok k)
theorem xorlw (k : Byte) : Statement (.xorlw k) := of_form rfl (literal_ok k)

end Sys2Proof.Laws.AsmWellFormed
end

