-- ==== Sys2Proof/Tests/Slice0.lean ====
section
/-! SUPPORT. Tests. The expected values are the spec's: the words of 30_encoding.md, the worked lines of 40_byte_oriented.md,
41_bit_oriented.md and 42_literal_control.md, and the vectors of 95_test_vectors.md. After them, for every statement with
hypotheses, a state and operands that meet them. -/

namespace Sys2Proof.Tests

open Sys2Proof Sys2Proof.Machine

/-! ### WellFormed: an ill-formed statement for each check -/

theorem test_wellFormed_f_128 : (AsmLine.mk "CLRF" [128]).wellFormed = false := by decide
theorem test_wellFormed_fd_128 : (AsmLine.mk "ADDWF" [128, 0]).wellFormed = false := by decide
theorem test_wellFormed_d_2 : (AsmLine.mk "ADDWF" [32, 2]).wellFormed = false := by decide
theorem test_wellFormed_b_8 : (AsmLine.mk "BTFSS" [32, 8]).wellFormed = false := by decide
theorem test_wellFormed_fb_128 : (AsmLine.mk "BCF" [128, 0]).wellFormed = false := by decide
theorem test_wellFormed_k_256 : (AsmLine.mk "MOVLW" [256]).wellFormed = false := by decide
theorem test_wellFormed_target_2048 : (AsmLine.mk "GOTO" [2048]).wellFormed = false := by decide
theorem test_wellFormed_missing_operand : (AsmLine.mk "BCF" [32]).wellFormed = false := by decide
theorem test_wellFormed_extra_operand : (AsmLine.mk "NOP" [0]).wellFormed = false := by decide
theorem test_wellFormed_unknown_mnemonic : (AsmLine.mk "TRIS" [5]).wellFormed = false := by decide
theorem test_wellFormed_limits : (AsmLine.mk "BTFSS" [127, 7]).wellFormed = true ∧ (AsmLine.mk "CALL" [2047]).wellFormed = true
    ∧ (AsmLine.mk "ADDWF" [127]).wellFormed = true := by decide

/-! ### Decode: a word of every constructor, written out from the spec's patterns -/

theorem test_decode_addwf : decode 0b00011100100000 = some (.addwf 0x20 .w) := by decide
theorem test_decode_andwf : decode 0b00010110100000 = some (.andwf 0x20 .file) := by decide
theorem test_decode_clrf : decode 0b00000110100000 = some (.clrf 0x20) := by decide
theorem test_decode_clrw : decode 0b00000101111111 = some (.clrw) := by decide
theorem test_decode_comf : decode 0b00100100100000 = some (.comf 0x20 .w) := by decide
theorem test_decode_decf : decode 0b00001110100000 = some (.decf 0x20 .file) := by decide
theorem test_decode_decfsz : decode 0b00101110100000 = some (.decfsz 0x20 .file) := by decide
theorem test_decode_incf : decode 0b00101010100000 = some (.incf 0x20 .file) := by decide
theorem test_decode_incfsz : decode 0b00111111111111 = some (.incfsz 0x7F .file) := by decide
theorem test_decode_iorwf : decode 0b00010000100000 = some (.iorwf 0x20 .w) := by decide
theorem test_decode_movf : decode 0b00100000100000 = some (.movf 0x20 .w) := by decide
theorem test_decode_movwf : decode 0b00000010100000 = some (.movwf 0x20) := by decide
theorem test_decode_nop : decode 0b00000001100000 = some (.nop) := by decide
theorem test_decode_rlf : decode 0b00110100100000 = some (.rlf 0x20 .w) := by decide
theorem test_decode_rrf : decode 0b00110000100000 = some (.rrf 0x20 .w) := by decide
theorem test_decode_subwf : decode 0b00001010100000 = some (.subwf 0x20 .file) := by decide
theorem test_decode_swapf : decode 0b00111000100000 = some (.swapf 0x20 .w) := by decide
theorem test_decode_xorwf : decode 0b00011010100000 = some (.xorwf 0x20 .file) := by decide
theorem test_decode_bcf : decode 0b01000110100000 = some (.bcf 0x20 3) := by decide
theorem test_decode_bsf : decode 0b01011110100000 = some (.bsf 0x20 7) := by decide
theorem test_decode_btfsc : decode 0b01100000100000 = some (.btfsc 0x20 0) := by decide
theorem test_decode_btfss : decode 0b01111110100000 = some (.btfss 0x20 7) := by decide
theorem test_decode_addlw : decode 0b11111100010101 = some (.addlw 0x15) := by decide
theorem test_decode_andlw : decode 0b11100101011111 = some (.andlw 0x5F) := by decide
theorem test_decode_call : decode 0b10000100100011 = some (.call 0x123) := by decide
theorem test_decode_clrwdt : decode 0b00000001100100 = some (.clrwdt) := by decide
theorem test_decode_goto : decode 0b10100000000101 = some (.goto 0x005) := by decide
theorem test_decode_iorlw : decode 0b11100000110101 = some (.iorlw 0x35) := by decide
theorem test_decode_movlw : decode 0b11001101011010 = some (.movlw 0x5A) := by decide
theorem test_decode_retfie : decode 0b00000000001001 = some (.retfie) := by decide
theorem test_decode_retlw : decode 0b11010001000010 = some (.retlw 0x42) := by decide
theorem test_decode_ret : decode 0b00000000001000 = some (.ret) := by decide
theorem test_decode_sleep : decode 0b00000001100011 = some (.sleep) := by decide
theorem test_decode_sublw : decode 0b11110000000010 = some (.sublw 0x02) := by decide
theorem test_decode_xorlw : decode 0b11101010101111 = some (.xorlw 0xAF) := by decide
theorem test_decode_unassigned : decode 0x0001 = none ∧ decode 0x0062 = none ∧ decode 0x0065 = none ∧ decode 0x3BFF = none := by
  decide
theorem test_decodeTableWord : decodeTableWord 16 0x07A0 = some (.addwf 0x20 .file) ∧ decodeTableWord 16 0x4000 = none := by decide

/-! ### One step -/

/-- Awake after reset at address 0x010, with W, and one storage register 0x20 holding a value. -/
def start (w v : Byte) : State := { State.reset with pc := 0x010, w := w, ram := [(0x20, v)] }

/-- The step of a word loaded at pc, and what is asked of the next state. -/
def stepOf {α : Type} (s : State) (word : Word) (ask : State → α) : Option α :=
  match step (loadWord s s.pc word) with
  | .next t => some (ask t)
  | .fault _ => none
  | .refused _ => none

/-- The refusal of a step, if it refuses. -/
def refusalOf (s : State) (word : Word) : Option Refusal :=
  match step (loadWord s s.pc word) with
  | .next _ => none
  | .fault _ => none
  | .refused r => some r

/-- W, register 0x20, C, DC, Z. -/
def wfcdz (t : State) : Byte × Byte × Bool × Bool × Bool := (t.w, storageRead t 0x20, t.c, t.dc, t.z)

theorem test_addwf :
    stepOf (start 0x17 0xC2) 0x0720 (wfcdz) = some (0xD9, 0xC2, false, false, false) := by decide
theorem test_addwf_wraps :
    stepOf (start 0x01 0xFF) 0x07A0 (wfcdz) = some (0x01, 0x00, true, true, true) := by decide
theorem test_andwf :
    stepOf (start 0x17 0xC2) 0x05A0 (wfcdz) = some (0x17, 0x02, false, false, false) := by decide
theorem test_clrf :
    stepOf ({ start 0x11 0x5A with c := true }) 0x01A0 (wfcdz) = some (0x11, 0x00, true, false, true) := by decide
theorem test_clrw :
    stepOf ({ start 0x91 0x5A with dc := true }) 0x0100 (wfcdz) = some (0x00, 0x5A, false, true, true) := by decide
theorem test_comf :
    stepOf (start 0x00 0x13) 0x0920 (wfcdz) = some (0xEC, 0x13, false, false, false) := by decide
theorem test_decf :
    stepOf ({ start 0x00 0x01 with c := true }) 0x03A0 (wfcdz) = some (0x00, 0x00, true, false, true) := by decide
theorem test_decf_wraps :
    stepOf (start 0x00 0x00) 0x03A0 (wfcdz) = some (0x00, 0xFF, false, false, false) := by decide
theorem test_decfsz_skips :
    stepOf (start 0x00 0x01) 0x0BA0 (fun t => (storageRead t 0x20, t.pc, t.z)) = some (0x00, 0x012, false) := by decide
theorem test_decfsz_no_skip :
    stepOf (start 0x00 0x00) 0x0BA0 (fun t => (storageRead t 0x20, t.pc)) = some (0xFF, 0x011) := by decide
theorem test_incf :
    stepOf (start 0x00 0xFF) 0x0AA0 (wfcdz) = some (0x00, 0x00, false, false, true) := by decide
theorem test_incfsz_skips :
    stepOf (start 0x00 0xFF) 0x0FA0 (fun t => (storageRead t 0x20, t.pc, t.z)) = some (0x00, 0x012, false) := by decide
theorem test_incfsz_no_skip :
    stepOf (start 0x00 0x00) 0x0FA0 (fun t => (storageRead t 0x20, t.pc)) = some (0x01, 0x011) := by decide
theorem test_iorwf :
    stepOf (start 0x91 0x13) 0x0420 (wfcdz) = some (0x93, 0x13, false, false, false) := by decide
theorem test_movf_zero :
    stepOf (start 0x91 0x00) 0x0820 (wfcdz) = some (0x00, 0x00, false, false, true) := by decide
theorem test_movf :
    stepOf ({ start 0x91 0x4F with z := true }) 0x0820 (wfcdz) = some (0x4F, 0x4F, false, false, false) := by decide
theorem test_movwf :
    stepOf ({ start 0x4F 0xFF with z := true }) 0x00A0 (wfcdz) = some (0x4F, 0x4F, false, false, true) := by decide
theorem test_nop :
    stepOf (start 0x00 0x00) 0x0000 (fun t => (t.pc, wfcdz t)) = some (0x011, 0x00, 0x00, false, false, false) := by decide
theorem test_rlf :
    stepOf (start 0x00 0xE6) 0x0D20 (wfcdz) = some (0xCC, 0xE6, true, false, false) := by decide
theorem test_rlf_keeps_z :
    stepOf (start 0x00 0x80) 0x0DA0 (wfcdz) = some (0x00, 0x00, true, false, false) := by decide
theorem test_rrf :
    stepOf (start 0x00 0xE6) 0x0C20 (wfcdz) = some (0x73, 0xE6, false, false, false) := by decide
theorem test_rrf_carry_in :
    stepOf ({ start 0x00 0x01 with c := true }) 0x0CA0 (wfcdz) = some (0x00, 0x80, true, false, false) := by decide
theorem test_subwf :
    stepOf (start 0x02 0x03) 0x02A0 (wfcdz) = some (0x02, 0x01, true, true, false) := by decide
theorem test_subwf_borrow :
    stepOf (start 0x02 0x01) 0x02A0 (wfcdz) = some (0x02, 0xFF, false, false, false) := by decide
theorem test_swapf :
    stepOf (start 0x00 0xA5) 0x0E20 (wfcdz) = some (0x5A, 0xA5, false, false, false) := by decide
theorem test_xorwf :
    stepOf (start 0xB5 0xAF) 0x06A0 (wfcdz) = some (0xB5, 0x1A, false, false, false) := by decide
theorem test_bcf :
    stepOf (start 0x00 0xFF) 0x11A0 (wfcdz) = some (0x00, 0xF7, false, false, false) := by decide
theorem test_bsf :
    stepOf (start 0x00 0x01) 0x17A0 (wfcdz) = some (0x00, 0x81, false, false, false) := by decide
theorem test_btfsc_skips :
    stepOf (start 0x00 0xFE) 0x1820 (fun t => (t.pc, storageRead t 0x20)) = some (0x012, 0xFE) := by decide
theorem test_btfsc_no_skip :
    stepOf (start 0x00 0x01) 0x1820 (fun t => (t.pc, storageRead t 0x20)) = some (0x011, 0x01) := by decide
theorem test_btfss_skips :
    stepOf (start 0x00 0x80) 0x1FA0 (State.pc) = some (0x012) := by decide
theorem test_btfss_no_skip :
    stepOf (start 0x00 0x7F) 0x1FA0 (State.pc) = some (0x011) := by decide
theorem test_addlw :
    stepOf (start 0x10 0x00) 0x3E15 (wfcdz) = some (0x25, 0x00, false, false, false) := by decide
theorem test_addlw_wraps :
    stepOf (start 0xFF 0x00) 0x3E01 (wfcdz) = some (0x00, 0x00, true, true, true) := by decide
theorem test_andlw :
    stepOf (start 0xA3 0x00) 0x395F (wfcdz) = some (0x03, 0x00, false, false, false) := by decide
theorem test_call :
    stepOf ({ start 0x00 0x00 with pclath := 0x08 }) 0x2123 (fun t => (t.pc, t.stk)) = some (0x0923, [0x0011]) := by decide
theorem test_call_wraps :
    stepOf ({ start 0x00 0x00 with pc := 0x1FFF }) 0x2000 (fun t => (t.pc, t.stk)) = some (0x0000, [0x0000]) := by decide
theorem test_clrwdt :
    stepOf ({ start 0x00 0x00 with nTO := false, nPD := false, wdt := 9, wdtps := 3 }) 0x0064 (fun t => (t.nTO, t.nPD, t.wdt, t.wdtps)) = some (true, true, 0, 0) := by decide
theorem test_goto :
    stepOf (start 0x00 0x00) 0x2805 (State.pc) = some (0x0005) := by decide
theorem test_goto_page :
    stepOf ({ start 0x00 0x00 with pclath := 0x18 }) 0x2805 (fun t => (t.pc, t.pclath)) = some (0x1805, 0x18) := by decide
theorem test_iorlw :
    stepOf (start 0x9A 0x00) 0x3835 (wfcdz) = some (0xBF, 0x00, false, false, false) := by decide
theorem test_movlw :
    stepOf ({ start 0x11 0x00 with z := true }) 0x305A (wfcdz) = some (0x5A, 0x00, false, false, true) := by decide
theorem test_movlw_x_bits :
    stepOf (start 0x11 0x00) 0x335A (wfcdz) = some (0x5A, 0x00, false, false, false) := by decide
theorem test_retfie :
    stepOf ({ start 0x00 0x00 with stk := [0x0123, 0x0045] }) 0x0009 (fun t => (t.pc, t.stk, t.gie)) = some (0x0123, [0x0045], true) := by decide
theorem test_retlw :
    stepOf ({ start 0x00 0x00 with stk := [0x0011] }) 0x3442 (fun t => (t.w, t.pc, t.stk)) = some (0x42, 0x0011, []) := by decide
theorem test_return :
    stepOf ({ start 0x00 0x00 with stk := [0x0011] }) 0x0008 (fun t => (t.pc, t.stk, t.gie)) = some (0x0011, [], false) := by decide
theorem test_sleep :
    stepOf ({ start 0x00 0x00 with nTO := false, wdt := 9, wdtps := 3 }) 0x0063 (fun t => (t.nTO, t.nPD, t.sleeping, t.wdt, t.pc)) = some (true, false, true, 0, 0x011) := by decide
theorem test_sublw :
    stepOf (start 0x01 0x00) 0x3C02 (wfcdz) = some (0x01, 0x00, true, true, false) := by decide
theorem test_sublw_carries_differ :
    stepOf (start 0x01 0x00) 0x3C10 (wfcdz) = some (0x0F, 0x00, true, false, false) := by decide
theorem test_xorlw :
    stepOf (start 0xB5 0x00) 0x3AAF (wfcdz) = some (0x1A, 0x00, false, false, false) := by decide

/-! ### Special registers and events -/

theorem test_clrf_status : stepOf ({ start 0 0 with c := true, dc := true, nTO := false, irp := true, rp := 3 }) 0x0183 statusByte
    = some 0x0F := by decide
theorem test_movwf_status_keeps_to_pd : stepOf (start 0x00 0x00) 0x0083 statusByte = some 0x18 := by decide
theorem test_addwf_pcl_jumps : stepOf (start 0x07 0x00) 0x0782 State.pc = some 0x018 := by decide
theorem test_indirect_movwf : stepOf ({ start 0x5A 0x00 with fsr := 0x20 }) 0x0080 (fun t => storageRead t 0x20) = some 0x5A := by decide
theorem test_refuses_unmodelled : refusalOf (start 0 0) 0x0805 = some .unmodelledRegister := by decide
theorem test_refuses_reserved : refusalOf (start 0 0) 0x3B00 = some .reservedOpcode := by decide
theorem test_refuses_overflow : refusalOf ({ start 0 0 with stk := [1, 2, 3, 4, 5, 6, 7, 8] }) 0x2000 = some .stackOverflow := by decide
theorem test_refuses_underflow : refusalOf (start 0 0) 0x0008 = some .stackUnderflow := by decide
theorem test_interrupt_entry : stepOf ({ start 0 0 with gie := true, intcon := 0x12 }) 0x0000 (fun t => (t.pc, t.stk, t.gie))
    = some (0x0004, [0x010], false) := by decide
theorem test_withFetchWord : step (State.reset.withFetchWord 16 0x305A) = exec (.movlw 0x5A) (State.reset.withFetchWord 16 0x305A) :=
  rfl

/-! ### Witnesses: for each statement with hypotheses, a state and operands that meet them -/

/-- The word with the fixed bits of a row is a word of the row, for every row a statement names. -/
theorem test_witness_Encoded : ∀ row ∈ opcodeRows, row.value &&& row.mask = row.value := by
  simp only [opcodeRows, byteRows, bitRows, literalRows, List.cons_append, List.nil_append]
  decide

theorem test_witness_DecodeFollowsTheOneRow : progRead State.reset State.reset.pc = 0x3B00
    ∧ progRead (loadWord State.reset 0 0x07FF) 0 = 0x07FF ∧ decode 0x07FF = some (.addwf 0x7F .file) := by decide

theorem test_witness_AssembleDisassemble : decode 0x0100 = some .clrw ∧ decode 0x017F = some .clrw
    ∧ assemble ⟨"ADDWF", [127, 1]⟩ = some 0x07FF ∧ assemble ⟨"ADDWF", [128, 1]⟩ = none ∧ assemble ⟨"BTFSS", [127, 8]⟩ = none := by decide

theorem test_witness_OmittedDestinationIsFile : ("ADDWF", OperandForm.fileDest) ∈ operandForms
    ∧ ("XORWF", OperandForm.fileDest) ∈ operandForms ∧ assemble ⟨"ADDWF", [127]⟩ = some 0x07FF := by decide

theorem test_witness_DataAddressing : (0x01 : FileAddr) ≠ 0x00 ∧ (0x7F : FileAddr) ≠ 0x00
    ∧ dataAddress { State.reset with rp := 3 } 0x7F = 0x1FF ∧ dataAddress { State.reset with irp := true, fsr := 0xFF } 0x00 = 0x1FF := by
  decide

/-- Each clause at the first and the last address of its range. -/
theorem test_witness_DefaultRegisterMap : State.reset.params.extra = []
    ∧ selectReg State.reset.params 0x180 = some .indf ∧ selectReg State.reset.params 0x101 = some .tmr0
    ∧ selectReg State.reset.params 0x181 = some .option ∧ selectReg State.reset.params 0x002 = some .pcl
    ∧ selectReg State.reset.params 0x183 = some .status ∧ selectReg State.reset.params 0x104 = some .fsr
    ∧ selectReg State.reset.params 0x08A = some .pclath ∧ selectReg State.reset.params 0x18B = some .intcon
    ∧ selectReg State.reset.params 0x070 = some (.storage 0x70) ∧ selectReg State.reset.params 0x1FF = some (.storage 0x7F)
    ∧ selectReg State.reset.params 0x020 = some (.storage 0x20) ∧ selectReg State.reset.params 0x06F = some (.storage 0x6F)
    ∧ selectReg State.reset.params 0x005 = none ∧ selectReg State.reset.params 0x189 = none
    ∧ selectReg State.reset.params 0x00C = none ∧ selectReg State.reset.params 0x19F = none
    ∧ selectReg State.reset.params 0x0A0 = none ∧ selectReg State.reset.params 0x1EF = none := by decide

theorem test_witness_IndfThroughItself : State.reset.fsr.toNat % 128 = 0
    ∧ ({ State.reset with fsr := 0x80, irp := true } : State).fsr.toNat % 128 = 0 := by decide

theorem test_witness_PlainStorage : fileReg State.reset 0x20 = some (.storage 0x20) ∧ fileReg State.reset 0x7F = some (.storage 0x7F) := by
  decide
theorem test_witness_ProgramCounterAsFileRegister : fileReg State.reset 0x02 = some .pcl := by decide
theorem test_witness_StatusAsDestination : fileReg State.reset 0x03 = some .status := by decide

theorem test_witness_Timer0Access :
    (∃ t, exec (.clrf 0x01) State.reset = .next t) ∧ regWritten (.clrf 0x01) State.reset = some .tmr0
      ∧ regRead (.clrf 0x01) State.reset = some .tmr0
      ∧ (∃ t, exec (.movf 0x01 .w) State.reset = .next t) ∧ regRead (.movf 0x01 .w) State.reset = some .tmr0
      ∧ regWritten (.movf 0x01 .w) State.reset = none ∧ fileReg State.reset 0x01 = some .tmr0 :=
  ⟨⟨_, rfl⟩, by decide, by decide, ⟨_, rfl⟩, by decide, by decide, by decide⟩

/-- A RegMap with an I/O register at 0x05 (log 12), whose pins read 0xA5. -/
def withPort : State := { State.reset with params := { extra := [(0x05, .io)] }, pins := [(0x05, 0xA5)] }

theorem test_witness_InputOutputRegister : fileReg withPort 0x05 = some (.port 0x05) ∧ Memory.read? withPort.pins 0x05 = some 0xA5 := by
  decide

/-- The hypotheses `fileReg s f = some r`, `v = readValue r s` of AddSubtractFile, LogicFile, CountMoveFile, ClearFileClearW,
MoveToFileSwap, RotateFile, CountSkipFile, BitClearBitSet and BitTestSkip, at storage and at each special register. -/
theorem test_witness_results : fileReg State.reset 0x20 = some (.storage 0x20) ∧ fileReg State.reset 0x00 = some .indf
    ∧ fileReg State.reset 0x01 = some .tmr0 ∧ fileReg State.reset 0x02 = some .pcl ∧ fileReg State.reset 0x03 = some .status
    ∧ fileReg State.reset 0x04 = some .fsr ∧ fileReg State.reset 0x0A = some .pclath ∧ fileReg State.reset 0x0B = some .intcon
    ∧ fileReg { State.reset with rp := 1 } 0x01 = some .option := by decide

theorem test_witness_CountSkipFile : fileReg (start 0 0x01) 0x20 = some (.storage 0x20)
    ∧ readValue (.storage 0x20) (start 0 0x01) = 0x01 ∧ readValue (.storage 0x20) (start 0 0xFF) = 0xFF
    ∧ readValue (.storage 0x20) (start 0 0x02) = 0x02 := by decide

theorem test_witness_BitTestSkip : fileReg (start 0 0x80) 0x20 = some (.storage 0x20)
    ∧ (readValue (.storage 0x20) (start 0 0x80)).getLsbD 7 = true ∧ (readValue (.storage 0x20) (start 0 0x80)).getLsbD 0 = false := by
  decide

/-- A full return stack. -/
def fullStack : State := { State.reset with stk := [1, 2, 3, 4, 5, 6, 7, 8] }

theorem test_witness_CallSubroutine : State.reset.stk.length < State.reset.params.stackDepth
    ∧ fullStack.stk.tail.length < fullStack.params.stackDepth ∧ fullStack.params.stackDepth ≤ fullStack.stk.length := by decide

theorem test_witness_Returns : fullStack.stk = 1 :: [2, 3, 4, 5, 6, 7, 8] ∧ State.reset.stk = [] := by decide

theorem test_witness_EveryInstructionCompletes :
    (Instr.addwf 0x20 .w).fileNamed = some 0x20 ∧ fileReg State.reset 0x20 ≠ none ∧ (Instr.addwf 0x20 .w).pushes = false
      ∧ (Instr.addwf 0x20 .w).pops = false ∧ (Instr.call 0).fileNamed = none ∧ (Instr.call 0).pushes = true
      ∧ State.reset.stk.length < State.reset.params.stackDepth ∧ Instr.ret.pops = true ∧ fullStack.stk ≠ [] := by decide

theorem test_witness_RefusalsAreTheClosedList :
    exec (.movf 0x05 .w) State.reset = .refused .unmodelledRegister ∧ exec (.call 0) fullStack = .refused .stackOverflow
      ∧ exec .retfie State.reset = .refused .stackUnderflow := ⟨rfl, rfl, rfl⟩

/-- The clauses of the frame of W and the status bits. -/
theorem test_witness_FrameOfWAndStatus :
    (∃ t, exec (.decfsz 0x20 .file) State.reset = .next t) ∧ (Instr.decfsz 0x20 .file).writesW = false
      ∧ (Instr.decfsz 0x20 .file).listsCarry = false ∧ (Instr.decfsz 0x20 .file).listsDigitCarry = false
      ∧ (Instr.decfsz 0x20 .file).listsZero = false ∧ regWritten (.decfsz 0x20 .file) State.reset ≠ some .status
      ∧ (∃ t, exec (.rlf 0x03 .file) State.reset = .next t) ∧ (Instr.rlf 0x03 .file).listsCarry = true
      ∧ (Instr.rlf 0x03 .file).listsZero = false ∧ (∃ t, exec (.clrf 0x03) State.reset = .next t)
      ∧ (Instr.clrf 0x03).listsZero = true ∧ (Instr.clrf 0x03).listsCarry = false :=
  ⟨⟨_, rfl⟩, rfl, rfl, rfl, rfl, by decide, ⟨_, rfl⟩, rfl, rfl, ⟨_, rfl⟩, rfl, rfl⟩

theorem test_witness_FrameOfSpecialRegisters :
    (∃ t, exec (.movwf 0x20) State.reset = .next t) ∧ regWritten (.movwf 0x20) State.reset = some (.storage 0x20)
      ∧ regRead (.movwf 0x20) State.reset = some (.storage 0x20) ∧ (Instr.movwf 0x20).pushes = false
      ∧ (Instr.movwf 0x20).pops = false := ⟨⟨_, rfl⟩, by decide, by decide, rfl, rfl⟩

theorem test_witness_FrameOfMemory :
    (∃ t, exec (.movwf 0x20) State.reset = .next t) ∧ regWritten (.movwf 0x20) State.reset ≠ some (.storage 0x21)
      ∧ regWritten (.movwf 0x20) State.reset ≠ some (.port 0x05) := ⟨⟨_, rfl⟩, by decide, by decide⟩

theorem test_witness_NextAddress :
    (∃ t, exec (.btfsc 0x20 0) (start 0 0xFE) = .next t) ∧ (Instr.btfsc 0x20 0).skips = true
      ∧ testHolds (.btfsc 0x20 0) (start 0 0xFE) = true ∧ (∃ t, exec .nop State.reset = .next t)
      ∧ Instr.nop.transfers = false ∧ regWritten .nop State.reset ≠ some .pcl ∧ testHolds .nop State.reset = false :=
  ⟨⟨_, rfl⟩, rfl, by decide, ⟨_, rfl⟩, rfl, by decide, rfl⟩

theorem test_witness_TwoCyclesWhenPcChanges_one : (∃ t, exec (.movwf 0x20) State.reset = .next t)
    ∧ testHolds (.movwf 0x20) State.reset = false ∧ (Instr.movwf 0x20).transfers = false
    ∧ regWritten (.movwf 0x20) State.reset ≠ some .pcl ∧ regWritten (.movwf 0x02) State.reset = some .pcl :=
  ⟨⟨_, rfl⟩, rfl, rfl, by decide, by decide⟩

theorem test_witness_TwoCyclesWhenPcChanges : exec (.goto 5) State.reset = .next { State.reset with pc := 5 }
    ∧ ({ State.reset with pc := 5 } : State).pc ≠ State.reset.pc + 1 ∧ cycles (.goto 5) State.reset = 2 :=
  ⟨rfl, by decide, rfl⟩

theorem test_witness_RotationsAndSwapsUndo : fileReg State.reset 0x20 = some (.storage 0x20)
    ∧ (∃ t u, exec (.rlf 0x20 .file) State.reset = .next t ∧ exec (.rrf 0x20 .file) t = .next u)
    ∧ (∃ t u, exec (.rrf 0x20 .file) State.reset = .next t ∧ exec (.rlf 0x20 .file) t = .next u)
    ∧ ∃ t u, exec (.swapf 0x20 .file) State.reset = .next t ∧ exec (.swapf 0x20 .file) t = .next u :=
  ⟨by decide, ⟨_, _, rfl, rfl⟩, ⟨_, _, rfl, rfl⟩, _, _, rfl, rfl⟩

theorem test_witness_CallThenReturn : ∃ t, exec (.call 0x7FF) State.reset = .next t := ⟨_, rfl⟩

theorem test_witness_InterruptThenReturn : ({ State.reset with gie := true } : State).gie = true
    ∧ ∃ t, takeInterrupt { State.reset with gie := true } = .ok t := ⟨rfl, _, rfl⟩

theorem test_witness_StepRunsTheDecodedInstruction : NoEvent (loadWord State.reset 0 0x305A)
    ∧ decode (progRead (loadWord State.reset 0 0x305A) 0) = some (.movlw 0x5A) ∧ (loadWord State.reset 0 0x305A).inputs = [] := by
  decide
theorem test_witness_StepRefusesUnassignedWords : NoEvent State.reset ∧ decode (progRead State.reset State.reset.pc) = none := by decide

/-- GIE and INTE set, with an input that sets INTF. -/
def interrupted : State := { State.reset with gie := true, intcon := 0x10, inputs := [{ flags := 2 }] }

theorem test_witness_InterruptEntry : interrupted.sleeping = false ∧ (currentInput interrupted).reset = none
    ∧ ¬ TimeOutRaised interrupted ∧ interrupted.gie = true ∧ InterruptRequested interrupted
    ∧ interrupted.stk.length < interrupted.params.stackDepth ∧ ¬ fullStack.stk.length < fullStack.params.stackDepth := by decide

/-- Asleep, with a MOVLW at pc, the Watchdog Timer enabled and one input to come. -/
def asleep (inp : StepInput) : State :=
  { loadWord State.reset 0 0x305A with sleeping := true, params := { wdtEnabled := true }, inputs := [inp] }

/-- Asleep with an interrupt pending, woken by the Watchdog. -/
def asleepPending : State := { asleep { watchdog := true } with gie := true, intcon := 0x12 }

/-- The clauses of the step while sleeping: nothing raised, an interrupt event, a Watchdog time-out (beside an interrupt event and
with a request pending), a reset; at an assigned word and at an unassigned one. -/
theorem test_witness_SleepingStep : (asleep {}).sleeping = true ∧ (currentInput (asleep {})).reset = none
    ∧ ¬ TimeOutRaised (asleep {}) ∧ (currentInput (asleep {})).wake = false
    ∧ (currentInput (asleep { wake := true })).wake = true ∧ ¬ TimeOutRaised (asleep { wake := true })
    ∧ TimeOutRaised (asleep { watchdog := true, wake := true })
    ∧ ¬ ((asleep { watchdog := true }).gie = true ∧ InterruptRequested (asleep { watchdog := true }))
    ∧ asleepPending.sleeping = true ∧ TimeOutRaised asleepPending ∧ asleepPending.gie = true ∧ InterruptRequested asleepPending
    ∧ asleepPending.stk.length < asleepPending.params.stackDepth
    ∧ (currentInput (asleep { reset := some .mclr })).reset = some .mclr
    ∧ decode (progRead (asleep {}) (asleep {}).pc) = some (.movlw 0x5A)
    ∧ decode (progRead { asleep {} with pc := 1 } 1) = none := by decide

/-- The same with a full return stack: the refusal branch of the Watchdog wake-up with a request pending. -/
def asleepPendingFull : State := { asleepPending with stk := [1, 2, 3, 4, 5, 6, 7, 8] }

theorem test_witness_SleepingStep_fullStack : asleepPendingFull.sleeping = true ∧ (currentInput asleepPendingFull).reset = none
    ∧ TimeOutRaised asleepPendingFull ∧ asleepPendingFull.gie = true ∧ InterruptRequested asleepPendingFull
    ∧ ¬ asleepPendingFull.stk.length < asleepPendingFull.params.stackDepth
    ∧ step asleepPendingFull = .refused .stackOverflow := by
  refine ⟨by decide, by decide, by decide, by decide, by decide, by decide, rfl⟩

/-- A platform whose IntReq is the step's own word and whose WakeEvent is a reset, a Watchdog time-out or an interrupt event by it. -/
def otherPlatform : Platform where
  regMap := defaultRegMap
  intReq inp _ := decide (inp.other = [0])
  wakeEvent inp _ := match inp.other with
    | [1] => .interrupt
    | [2] => .watchdog
    | [3] => .reset .mclr
    | _ => .none

theorem test_witness_InterruptEntry_platform :
    otherPlatform.intReq (currentInput { interrupted with inputs := [{ other := [0] }] }) (takeInput interrupted) = true
      ∧ otherPlatform.intReq (currentInput interrupted) (takeInput interrupted) = false
      ∧ decode (progRead (loadWord State.reset 0 0x305A) 0) = some (.movlw 0x5A) := by decide

theorem test_witness_SleepingStep_platform : ∀ e : Nat × WakeEvent, e ∈ [(0, .none), (1, .interrupt), (2, .watchdog), (3, .reset .mclr)] →
    otherPlatform.wakeEvent (currentInput (asleep { other := [e.1] })) (takeInput (asleep { other := [e.1] })) = e.2 := by decide

/-- In the minimal model no interrupt is taken even where a program has set GIE, an enable and its flag (R196). -/
theorem test_minimal_platform :
    stepOn minimalPlatform { loadWord State.reset 0 0x305A with gie := true, intcon := 0x12 }
      = exec (.movlw 0x5A) { loadWord State.reset 0 0x305A with gie := true, intcon := 0x12 } := rfl

/-- CLRF sets Z after its write: Z ends 1 under a RegMap whose write clears it (R123). -/
theorem test_clrf_sets_z_last :
    execOn { defaultRegMap with write := fun _ _ _ s => .ok { s with z := false } } {} (.clrf 0x20) State.reset
      = .next { State.reset with z := true, pc := 0x0001 } := rfl

/-- A Watchdog time-out comes before an interrupt event (R197 (d)): nTO is cleared. -/
theorem test_watchdog_before_interrupt_event :
    step (asleep { watchdog := true, wake := true }) = exec (.movlw 0x5A) { takeInput (asleep {}) with sleeping := false, nTO := false } :=
  rfl

theorem test_witness_ResetStep :
    (∀ kind ∈ [ResetKind.powerOn, .mclr, .brownOut], (currentInput (asleep { reset := some kind })).reset = some kind)
      ∧ (currentInput { State.reset with inputs := [{ reset := some .mclr }] }).reset = some .mclr
      ∧ (currentInput { asleep { watchdog := true } with sleeping := false }).reset = none
      ∧ TimeOutRaised { asleep { watchdog := true } with sleeping := false } := by decide

/-- An input that sets RBIF, gives pins twice and raises a condition. -/
def busy : State :=
  { withPort with inputs := [{ flags := 1, pins := [(0x05, 0x11), (0x05, 0x22)], conds := [0x05] }], intcon := 0x12 }

theorem test_witness_StepInputTakenIn : busy.inputs = [currentInput busy] ∧ (takeInput busy).intcon = 0x13
    ∧ Memory.read? (currentInput busy).pins.reverse 0x05 = some 0x22 ∧ readValue (.port 0x05) (takeInput busy) = 0x22
    ∧ Memory.read? (currentInput busy).pins.reverse 0x06 = none ∧ (takeInput busy).conds = [0x05] ∧ State.reset.inputs = [] := by
  decide

/-- A RegMap that is no table of the default's kind: every address reads what the step's input brings and sets GIE, writes to 0x05
drive W, and writes elsewhere refuse. -/
def otherRegMap : RegMap where
  read _ inp s := .ok (BitVec.ofNat 8 (inp.other.headD 0), { s with gie := true })
  write _ f v s := if f = 0x05 then .ok (s.setW v) else .error .unmodelledRegister

theorem test_other_regMap :
    execOn otherRegMap { other := [0x41] } (.incf 0x05 .file) State.reset
        = .next { State.reset with w := 0x42, gie := true, pc := 0x0001 }
      ∧ execOn otherRegMap {} (.incf 0x20 .file) State.reset = .refused .unmodelledRegister := ⟨rfl, rfl⟩

theorem test_witness_OneReadThenOneWrite :
    (Instr.incf 0x05 .file).fileNamed = some 0x05 ∧ (Instr.incf 0x05 .file).fileWritten = some 0x05
      ∧ (Instr.incf 0x05 .w).fileWritten = none ∧ readFile 0x05 State.reset = .error .unmodelledRegister
      ∧ (∃ v t, otherRegMap.read 0x05 {} State.reset = .ok (v, t)) ∧ (∃ x, otherRegMap.write true 0x05 1 State.reset = .ok x)
      ∧ otherRegMap.write true 0x20 1 State.reset = .error .unmodelledRegister :=
  ⟨rfl, rfl, rfl, rfl, ⟨_, _, rfl⟩, ⟨_, rfl⟩, rfl⟩

/-- Two RegMaps that differ, and agree on all an instruction that names 0x05 and writes nothing uses. -/
theorem test_witness_RegMapIsAnArgument : NoEvent (loadWord State.reset 0 0x0805)
    ∧ decode (progRead (loadWord State.reset 0 0x0805) 0) = some (.movf 0x05 .w)
    ∧ otherRegMap.read 0x05 {} State.reset = { otherRegMap with write := fun _ _ _ s => .ok s }.read 0x05 {} State.reset
    ∧ (Instr.movf 0x05 .w).fileWritten = none := ⟨by decide, by decide, rfl, rfl⟩

theorem test_witness_StepKeepsTheInvariant : StateInv (loadWord State.reset 0 0x00A0)
    ∧ ∃ t, step (loadWord State.reset 0 0x00A0) = .next t := ⟨by decide, _, rfl⟩

theorem test_witness_ProgramIsFixed : ∃ t, step interrupted = .next t ∧ t.prog = interrupted.prog ∧ t.inputs = [] := ⟨_, rfl, rfl, rfl⟩

theorem test_witness_StepReadsOnlyTheFetchedWord : (0x001 : ProgAddr) ≠ State.reset.pc := by decide

theorem test_witness_SleepModeOnlyBySleep :
    (∃ t, step (loadWord State.reset 0 0x0063) = .next t ∧ t.sleeping = true) ∧ State.reset.sleeping = false
      ∧ (∃ t, step (asleep { wake := true }) = .next t ∧ t.sleeping = false) ∧ (asleep { wake := true }).sleeping = true :=
  ⟨⟨_, rfl, rfl⟩, rfl, ⟨_, rfl, rfl⟩, rfl⟩

theorem test_witness_GlobalInterruptEnableChanges :
    (∃ t, step { loadWord State.reset 0 0x0009 with stk := [0x0045] } = .next t ∧ t.gie = true) ∧ State.reset.gie = false
      ∧ (∃ t, step interrupted = .next t ∧ t.gie = false) ∧ interrupted.gie = true := ⟨⟨_, rfl, rfl⟩, rfl, ⟨_, rfl, rfl⟩, rfl⟩

end Sys2Proof.Tests
end

