-- ==== Sys2Proof/Proofs/PlainStorage.lean ====
section
/-! PROOFS. Plain storage registers (20_memory.md R64): what a file access to one reads and writes. -/

namespace Sys2Proof.Machine

/-! ### The accessors at a storage register -/

@[simp] theorem readValue_storage (a : Nat) (s : State) : readValue (.storage a) s = storageRead s a := rfl
@[simp] theorem afterRead_storage (a : Nat) (s : State) : afterRead (.storage a) s = s := rfl
@[simp] theorem writeReg_storage (masked : Bool) (a : Nat) (v : Byte) (s : State) :
    writeReg masked (.storage a) v s = storageWrite s a v := rfl

/-- Storage decides no file address: a write of it leaves the banks and FSR as they are. -/
@[simp] theorem fileReg_storageWrite (s : State) (a : Nat) (v : Byte) (f : FileAddr) :
    fileReg (storageWrite s a v) f = fileReg s f := fileReg_congr rfl rfl rfl rfl f

/-- The frame of a storage write: putting the old storage back gives the old state. -/
theorem storageWrite_restore_ram (s : State) (a : Nat) (v : Byte) : { storageWrite s a v with ram := s.ram } = s := rfl

/-! ### File accesses to a storage register -/

theorem readFile_of_storage {f : FileAddr} {s : State} {a : Nat} (h : fileReg s f = some (.storage a)) :
    readFile f s = .ok (storageRead s a, s) := by rw [readFile_of_some h, readValue_storage, afterRead_storage]

theorem writeFile_of_storage {f : FileAddr} {s : State} {a : Nat} (h : fileReg s f = some (.storage a)) (masked : Bool)
    (v : Byte) : writeFile masked f v s = .ok (storageWrite s a v) := by rw [writeFile_of_some h, writeReg_storage]

/-- The read through f after the write through f: f selects the same register still, and that register holds v. -/
theorem readFile_storageWrite {f : FileAddr} {s : State} {a : Nat} (h : fileReg s f = some (.storage a)) (v : Byte) :
    readFile f (storageWrite s a v) = .ok (v, storageWrite s a v) := by
  have hf : fileReg (storageWrite s a v) f = some (.storage a) := (fileReg_storageWrite s a v f).trans h
  rw [readFile_of_storage hf, storageRead_storageWrite, if_pos rfl]

/-- Settles O13: the state after the write is `storageWrite s a v`, whose reads, frame and read-back are the lemmas above. -/
theorem plainStorage : Obligations.PlainStorage := by
  intro s f a h
  refine ⟨readFile_of_storage h, fun masked v => ⟨storageWrite s a v, writeFile_of_storage h masked v, ?_, ?_, ?_⟩⟩
  · exact fun b => storageRead_storageWrite s a b v
  · exact storageWrite_restore_ram s a v
  · exact readFile_storageWrite h v

end Sys2Proof.Machine
end

