-- ==== Sys2Proof/Proofs/Encoding.lean ====
section
/-! PROOFS. The encoding (30_encoding.md): the fields as numbers, decoding as the one row a word satisfies, the words of each
instruction format, and the assembler's omitted d. -/

namespace Sys2Proof

open Sys2Proof.Machine

/-! ### The fields as numbers (R97) -/

theorem fieldF_toNat (ir : Word) : (fieldF ir).toNat = ir.toNat % 128 := by simp [fieldF, BitVec.extractLsb'_toNat]

theorem fieldB_toNat (ir : Word) : (fieldB ir).toNat = ir.toNat / 128 % 8 := by
  simp [fieldB, BitVec.extractLsb'_toNat, Nat.shiftRight_eq_div_pow]

theorem fieldK8_toNat (ir : Word) : (fieldK8 ir).toNat = ir.toNat % 256 := by simp [fieldK8, BitVec.extractLsb'_toNat]

theorem fieldK11_toNat (ir : Word) : (fieldK11 ir).toNat = ir.toNat % 2048 := by simp [fieldK11, BitVec.extractLsb'_toNat]

theorem fieldD_eq_file_iff (ir : Word) : fieldD ir = .file ↔ ir.getLsbD 7 = true := by
  unfold fieldD; split <;> simp_all

theorem fieldD_eq_w_iff (ir : Word) : fieldD ir = .w ↔ ir.getLsbD 7 = false := by
  unfold fieldD; split <;> simp_all

/-- Bit 7 of a word, which d is, as a number. -/
theorem getLsbD_seven_iff (ir : Word) : ir.getLsbD 7 = true ↔ ir.toNat / 128 % 2 = 1 := by
  simp [BitVec.getLsbD, Nat.testBit_eq_decide_div_mod_eq]

/-- The page is put above the literal (R71): the low 11 bits of a target are the literal. -/
theorem pageTarget_toNat_mod (s : State) (k : PageAddr) : (pageTarget s k).toNat % 2048 = k.toNat := by
  have hlow : (pageTarget s k).setWidth 11 = k := by
    unfold pageTarget
    exact BitVec.setWidth_append_eq_right
  simpa using congrArg BitVec.toNat hlow

/-- Settles O1: each field is the remainder its slice is. -/
theorem fieldExtraction : Obligations.FieldExtraction := fun ir s =>
  ⟨fieldF_toNat ir, (fieldD_eq_file_iff ir).trans (getLsbD_seven_iff ir), fieldB_toNat ir, fieldK8_toNat ir, fieldK11_toNat ir,
    pageTarget_toNat_mod s (fieldK11 ir)⟩

/-! ### Decoding is the one row (R98) -/

/-- A word decodes to what a row it satisfies reads from it, and to nothing else. -/
theorem decode_eq_some_iff (ir : Word) (i : Instr) :
    decode ir = some i ↔ ∃ row ∈ opcodeRows, ir &&& row.mask = row.value ∧ row.build ir = i := by
  constructor
  · intro h
    obtain ⟨row, hfind, hbuild⟩ := Option.map_eq_some_iff.1 h
    have haccepts : row.accepts ir = true := List.find?_some (p := fun r : OpcodeRow => r.accepts ir) hfind
    exact ⟨row, List.mem_of_find?_eq_some hfind, (row.accepts_iff ir).1 haccepts, hbuild⟩
  · rintro ⟨row, hmem, haccepts, rfl⟩
    exact decode_of_accepts hmem haccepts

theorem decode_eq_none_iff (ir : Word) : decode ir = none ↔ ∀ row ∈ opcodeRows, ir &&& row.mask ≠ row.value := by
  simp only [decode, Option.map_eq_none_iff, List.find?_eq_none, OpcodeRow.accepts_iff, ne_eq]

/-- Rows in conflict that all accept one word are at most one row. -/
theorem length_le_one_of_accepts {ir : Word} : ∀ {rows : List OpcodeRow},
    rows.Pairwise (fun r r' => r.value &&& r'.mask ≠ r'.value &&& r.mask) → (∀ row ∈ rows, row.accepts ir = true) →
    rows.length ≤ 1
  | [], _, _ => Nat.zero_le 1
  | [_], _, _ => Nat.le_refl 1
  | r :: r' :: _, hconflict, haccepts =>
    have hr' : r' ∈ r :: r' :: _ := List.mem_cons_of_mem r List.mem_cons_self
    (OpcodeRow.not_accepts_both (List.rel_of_pairwise_cons hconflict List.mem_cons_self) ir
      (haccepts r List.mem_cons_self) (haccepts r' hr')).elim

/-- At most one row of the map accepts a word (R98). -/
theorem length_filter_accepts_le_one (ir : Word) : (opcodeRows.filter (fun row => row.accepts ir)).length ≤ 1 :=
  length_le_one_of_accepts (opcodeRows_conflict.filter _) fun _ hm => (List.mem_filter.1 hm).2

theorem fetch_eq_reservedOpcode_iff (s : State) : fetch s = .error .reservedOpcode ↔ decode (progRead s s.pc) = none := by
  cases h : decode (progRead s s.pc) <;> simp [fetch, h]

/-- Settles O2: no two of the 35 rows accept a common word, so the first row found is the only one. -/
theorem decodeFollowsTheOneRow : Obligations.DecodeFollowsTheOneRow := by
  refine ⟨rfl, fun ir => ⟨decode_eq_some_iff ir, decode_eq_none_iff ir, length_filter_accepts_le_one ir, ?_⟩⟩
  rintro s rfl
  exact (fetch_eq_reservedOpcode_iff s).trans (decode_eq_none_iff _)

/-! ### The words of a format (R91 to R96, R102)

A row's mask covers the fixed bits, the operands stand in other bits, and what neither covers is don't-care. A part of a word is
within a mask when the mask leaves it as it is. -/

theorem word_eq_iff (v v' : Word) : v = v' ↔ ∀ i, i < 14 → v.getLsbD i = v'.getLsbD i :=
  ⟨fun h _ _ => h ▸ rfl, BitVec.eq_of_getLsbD_eq⟩

/-- Two parts of a word, each within its mask, are together within both masks. -/
theorem or_within {bits mask operandMask value operands : Word} (hbits : bits = mask ||| operandMask)
    (hvalue : value &&& mask = value) (hoperands : operands &&& operandMask = operands) :
    (value ||| operands) &&& bits = value ||| operands := by
  simp only [word_eq_iff, BitVec.getLsbD_and, BitVec.getLsbD_or] at *
  grind

/-- Parts of a word within disjoint masks are compared apart. -/
theorem masked_eq_or_iff {bits mask operandMask value operands : Word} (hbits : bits = mask ||| operandMask)
    (hdisjoint : mask &&& operandMask = 0) (hvalue : value &&& mask = value) (hoperands : operands &&& operandMask = operands)
    (ir : Word) : ir &&& bits = value ||| operands ↔ ir &&& mask = value ∧ ir &&& operandMask = operands := by
  simp only [word_eq_iff, BitVec.getLsbD_and, BitVec.getLsbD_or] at *
  simp only [BitVec.ofNat_eq_ofNat, BitVec.getLsbD_zero] at hdisjoint
  grind

/-- The mask of the n bits of a word from bit `start` on. -/
def sliceMask (start n : Nat) : Word := (BitVec.allOnes n).setWidth 14 <<< start

theorem getLsbD_sliceMask (start n i : Nat) :
    (sliceMask start n).getLsbD i = (decide (i < 14) && decide (start ≤ i) && decide (i < start + n)) := by
  simp only [sliceMask, BitVec.getLsbD_shiftLeft, BitVec.getLsbD_setWidth, BitVec.getLsbD_allOnes]
  grind

/-- An operand shifted to its place is within the mask of that place. -/
theorem slice_within (start : Nat) {n : Nat} (k : BitVec n) :
    (k.setWidth 14 <<< start) &&& sliceMask start n = k.setWidth 14 <<< start := by
  simp only [word_eq_iff, BitVec.getLsbD_and, getLsbD_sliceMask, BitVec.getLsbD_shiftLeft, BitVec.getLsbD_setWidth]
  grind

/-- The bits of a place hold an operand exactly when the slice extracted there is the operand (R97). -/
theorem and_sliceMask_eq_iff {start n : Nat} (hfits : start + n ≤ 14) (ir : Word) (k : BitVec n) :
    ir &&& sliceMask start n = k.setWidth 14 <<< start ↔ ir.extractLsb' start n = k := by
  constructor
  · intro h
    ext i hi
    have hbit := congrArg (fun v : Word => v.getLsbD (start + i)) h
    simp only [BitVec.getLsbD_and, getLsbD_sliceMask, BitVec.getLsbD_shiftLeft, BitVec.getLsbD_setWidth] at hbit
    grind
  · rintro rfl
    simp only [word_eq_iff, BitVec.getLsbD_and, getLsbD_sliceMask, BitVec.getLsbD_shiftLeft, BitVec.getLsbD_setWidth,
      BitVec.getLsbD_extractLsb']
    grind

theorem destBit_within (d : Dest) : d.bit7 &&& sliceMask 7 1 = d.bit7 := by cases d <;> decide

theorem and_destMask_eq_iff (ir : Word) (d : Dest) : ir &&& sliceMask 7 1 = d.bit7 ↔ fieldD ir = d := by
  have hslice := and_sliceMask_eq_iff (start := 7) (n := 1) (by decide) ir
  have hbit : ir.extractLsb' 7 1 = BitVec.ofBool (ir.getLsbD 7) := by ext i hi; simp [show i = 0 by omega]
  cases d with
  | w => rw [fieldD_eq_w_iff]; exact (hslice 0).trans (by rw [hbit]; cases ir.getLsbD 7 <;> decide)
  | file => rw [fieldD_eq_file_iff]; exact (hslice 1).trans (by rw [hbit]; cases ir.getLsbD 7 <;> decide)

/-- The words of a format with one operand in the low bits: CLRF and MOVWF, the literals, and the targets. -/
theorem cleared_eq_low_iff (dontCare mask : Word) {n : Nat} {value : Word} (ir : Word) (k : BitVec n) (hfits : n ≤ 14 := by decide)
    (hcover : ~~~dontCare = mask ||| sliceMask 0 n := by decide) (hdisjoint : mask &&& sliceMask 0 n = 0 := by decide)
    (hvalue : value &&& mask = value := by decide) :
    ir &&& ~~~dontCare = value ||| k.setWidth 14 ↔ ir &&& mask = value ∧ ir.extractLsb' 0 n = k := by
  rw [← BitVec.shiftLeft_zero (k.setWidth 14), masked_eq_or_iff hcover hdisjoint hvalue (slice_within 0 k),
    and_sliceMask_eq_iff (by omega)]

/-- The words of a format with f in the low bits and an operand of n bits above it. -/
theorem cleared_eq_fileAnd_iff (n : Nat) {mask value operand : Word} (hcover : 0x3F80 = mask ||| sliceMask 7 n)
    (hdisjoint : mask &&& sliceMask 7 n = 0) (hvalue : value &&& mask = value) (hoperand : operand &&& sliceMask 7 n = operand)
    (ir : Word) (f : FileAddr) :
    ir &&& ~~~0x0000 = value ||| operand ||| f.setWidth 14
      ↔ ir &&& mask = value ∧ fieldF ir = f ∧ ir &&& sliceMask 7 n = operand := by
  rw [cleared_eq_low_iff 0x0000 0x3F80 ir f (hvalue := or_within hcover hvalue hoperand),
    masked_eq_or_iff hcover hdisjoint hvalue hoperand, and_assoc, and_comm (b := _ = f)]
  rfl

/-- The words of the format f,b. -/
theorem cleared_eq_encodeBit_iff {value : Word} (hvalue : value &&& 0x3C00 = value) (ir : Word) (f : FileAddr) (b : BitNum) :
    ir &&& ~~~0x0000 = encodeBit value f b ↔ ir &&& 0x3C00 = value ∧ fieldF ir = f ∧ fieldB ir = b := by
  rw [encodeBit, cleared_eq_fileAnd_iff 3 (by decide) (by decide) hvalue (slice_within 7 b), and_sliceMask_eq_iff (by decide), fieldB]

/-- The words of the format f,d. -/
theorem cleared_eq_encodeByte_iff {value : Word} (hvalue : value &&& 0x3F00 = value) (ir : Word) (f : FileAddr) (d : Dest) :
    ir &&& ~~~0x0000 = encodeByte value f d ↔ ir &&& 0x3F00 = value ∧ fieldF ir = f ∧ fieldD ir = d := by
  rw [encodeByte, cleared_eq_fileAnd_iff 1 (by decide) (by decide) hvalue (destBit_within d), and_destMask_eq_iff]

/-- Settles O5: of the 35 rows only the instruction's own builds it (`simp` drops the others, which build another constructor), and
the words of that row with these operand fields are those of its format, with the row's don't-care bits and mask. -/
theorem wordsOfAnInstruction : Obligations.WordsOfAnInstruction := by
  intro ir i
  rw [decode_eq_some_iff]
  simp only [opcodeRows, byteRows, bitRows, literalRows, List.cons_append, List.nil_append, List.mem_cons, List.not_mem_nil, or_false,
    exists_eq_or_imp, exists_eq_left]
  cases i with
  | addwf f d | andwf f d | comf f d | decf f d | decfsz f d | incf f d | incfsz f d | iorwf f d | movf f d | rlf f d | rrf f d
  | subwf f d | swapf f d | xorwf f d =>
    exact Iff.trans (by simp) (cleared_eq_encodeByte_iff (by decide) ir f d).symm
  | bcf f b | bsf f b | btfsc f b | btfss f b =>
    exact Iff.trans (by simp) (cleared_eq_encodeBit_iff (by decide) ir f b).symm
  | clrf f | movwf f => exact Iff.trans (by simp [fieldF]) (cleared_eq_low_iff 0x0000 0x3F80 ir f).symm
  | andlw k | iorlw k | xorlw k => exact Iff.trans (by simp [fieldK8]) (cleared_eq_low_iff 0x0000 0x3F00 ir k).symm
  | addlw k | sublw k => exact Iff.trans (by simp [fieldK8]) (cleared_eq_low_iff 0x0100 0x3E00 ir k).symm
  | movlw k | retlw k => exact Iff.trans (by simp [fieldK8]) (cleared_eq_low_iff 0x0300 0x3C00 ir k).symm
  | call k | goto k => exact Iff.trans (by simp [fieldK11]) (cleared_eq_low_iff 0x0000 0x3800 ir k).symm
  | clrw | nop | clrwdt | retfie | ret | sleep => simp [dontCareMask, encode]

/-! ### The omitted d (R107) -/

/-- No mnemonic is listed twice: each has the form it is listed with. -/
theorem lookup_operandForms : ∀ e ∈ operandForms, operandForms.lookup e.1 = some e.2 := by decide

theorem wellFormed_omitted_dest {m : String} (hm : operandForms.lookup m = some .fileDest) (f : Nat) :
    (AsmLine.mk m [f]).wellFormed = (AsmLine.mk m [f, 1]).wellFormed := by
  simp [AsmLine.wellFormed, hm, operandsInRange]

/-- The two statements are read as the same instruction: `destOperand` gives an absent operand the meaning of 1, and no mnemonic
of the form f,d has a bit number. -/
theorem ofAsm_omitted_dest {m : String} (hm : (m, OperandForm.fileDest) ∈ operandForms) (f : Nat) :
    Instr.ofAsm ⟨m, [f]⟩ = Instr.ofAsm ⟨m, [f, 1]⟩ := by
  simp only [operandForms, List.cons_append, List.nil_append, List.mem_cons, List.not_mem_nil, Prod.mk.injEq, reduceCtorEq, and_true,
    and_false, or_self, or_false, false_or] at hm
  rcases hm with rfl | rfl | rfl | rfl | rfl | rfl | rfl | rfl | rfl | rfl | rfl | rfl | rfl | rfl <;> rfl

/-- Settles O8: the two statements are well formed alike and are read as the same instruction. -/
theorem omittedDestinationIsFile : Obligations.OmittedDestinationIsFile := by
  intro m f hm
  simp only [assemble, wellFormed_omitted_dest (lookup_operandForms _ hm), ofAsm_omitted_dest hm]

end Sys2Proof
end

