-- ==== Sys2Proof/Proofs/ByteOriented.lean ====
section
/-! PROOFS. Operations of the byte-oriented page (40_byte_oriented.md): the words of a row, the read-modify-write as one
`stored`, and what MOVWF, SWAPF, NOP and CLRWDT make of a state. -/

namespace Sys2Proof.Machine

/-! ### The words of a row (R99) -/

/-- Every row of the opcode map encodes the instruction it builds: no other row takes a word from it. -/
theorem encoded_of_mem_opcodeRows {mask value : Word} {build : Word → Instr}
    (h : (⟨value, mask, build⟩ : OpcodeRow) ∈ opcodeRows) : Encoded mask value build :=
  fun _ haccepts => decode_of_accepts h haccepts

/-! ### The read-modify-write (R65, R120) -/

/-- An operation that lists no status bit writes none (R36). -/
@[simp] theorem State.setFlags_none (s : State) : s.setFlags {} = s := rfl

/-- An instruction of the read-modify-write form has a next state wherever RegMap defines the register. The result is stored last:
after the read, the listed status bits, and the move of pc, which the read left where it was. -/
theorem finish_fileOp_of_some {inp : StepInput} {op : Byte → Bool → Byte → AluOut} {f : FileAddr} {d : Dest} {s : State}
    {r : FileReg} (h : fileReg s f = some r) :
    finish (fileOp defaultRegMap inp op f d s)
      = .next (stored d (op s.w s.c (readValue r s)).flags.listsAny r (op s.w s.c (readValue r s)).value
          (((afterRead r s).setFlags (op s.w s.c (readValue r s)).flags).setPc (s.pc + 1))) := by
  have hpc (fw : FlagWrite) : ((afterRead r s).setFlags fw).advance = ((afterRead r s).setFlags fw).setPc (s.pc + 1) := by
    simp [State.advance]
  rw [fileOp_of_some h, hpc]
  cases d <;> rfl

/-- The same for an operation that lists no status bit: a STATUS it writes takes bits 2:0 from the result (R48). -/
theorem finish_fileOp_aluPlain {inp : StepInput} {op : Byte → Bool → Byte → Byte} {f : FileAddr} {d : Dest} {s : State}
    {r : FileReg} (h : fileReg s f = some r) :
    finish (fileOp defaultRegMap inp (fun w c v => aluPlain (op w c v)) f d s)
      = .next (stored d false r (op s.w s.c (readValue r s)) ((afterRead r s).setPc (s.pc + 1))) := by
  simp [finish_fileOp_of_some h, aluPlain, FlagWrite.listsAny]

/-! ### MOVWF and SWAPF (R132, R137) -/

theorem exec_movwf_of_some {f : FileAddr} {s : State} {r : FileReg} (h : fileReg s f = some r) :
    exec (.movwf f) s = .next (writeReg false r s.w ((afterRead r s).setPc (s.pc + 1))) :=
  finish_fileOp_aluPlain (op := fun w _ _ => w) (d := .file) h

theorem exec_swapf_of_some {f : FileAddr} {d : Dest} {s : State} {r : FileReg} (h : fileReg s f = some r) :
    exec (.swapf f d) s = .next (stored d false r (swapDigits (readValue r s)) ((afterRead r s).setPc (s.pc + 1))) :=
  finish_fileOp_aluPlain (op := fun _ _ v => swapDigits v) h

/-- The bits of the exchanged digits: the high digit below, the low digit above. -/
theorem swapDigits_getLsbD (v : Byte) (n : Nat) :
    (swapDigits v).getLsbD n = if n < 4 then (highDigit v).getLsbD n else (lowDigit v).getLsbD (n - 4) :=
  BitVec.getLsbD_append

theorem swapDigits_getLsbD_low (v : Byte) {n : Nat} (hn : n < 4) : (swapDigits v).getLsbD n = v.getLsbD (n + 4) := by
  simp [swapDigits_getLsbD, highDigit, hn, Nat.add_comm]

theorem swapDigits_getLsbD_high (v : Byte) {n : Nat} (hn : n < 4) : (swapDigits v).getLsbD (n + 4) = v.getLsbD n := by
  simp [swapDigits_getLsbD, lowDigit, hn]

/-- Settles O23: both have the read-modify-write form with no status bit listed, SWAPF's result being `swapDigits` of the value
read. -/
theorem moveToFileSwap : Obligations.MoveToFileSwap := by
  refine ⟨encoded_of_mem_opcodeRows (by simp [opcodeRows, byteRows]),
    encoded_of_mem_opcodeRows (by simp [opcodeRows, byteRows]), ?_⟩
  rintro s f d r v hr rfl
  exact ⟨exec_movwf_of_some hr, swapDigits (readValue r s),
    fun n hn => ⟨swapDigits_getLsbD_low _ hn, swapDigits_getLsbD_high _ hn⟩, exec_swapf_of_some hr⟩

/-! ### NOP and CLRWDT (R133, R164) -/

theorem exec_nop (s : State) : exec .nop s = .next { s with pc := s.pc + 1 } := rfl

theorem exec_clrwdt (s : State) :
    exec .clrwdt s = .next { s with wdt := 0, wdtps := 0, nTO := true, nPD := true, pc := s.pc + 1 } := rfl

/-- An instruction that transfers no control, whose test is not true and that writes no file register takes one cycle (R229). -/
theorem cycles_eq_one {i : Instr} {s : State} (htransfers : i.transfers = false) (htest : testHolds i s = false)
    (hwritten : i.fileWritten = none) : cycles i s = 1 := by
  simp [cycles, htransfers, htest, writesPcl, hwritten]

/-- Settles O33: the two next states are those of the two arms, and neither instruction meets a condition for a second cycle. -/
theorem nopAndClrwdt : Obligations.NopAndClrwdt := by
  refine ⟨encoded_of_mem_opcodeRows (by simp [opcodeRows, byteRows]),
    encoded_of_mem_opcodeRows (by simp [opcodeRows, literalRows]), ?_⟩
  intro s
  exact ⟨exec_nop s, exec_clrwdt s, cycles_eq_one rfl rfl rfl, cycles_eq_one rfl rfl rfl⟩

end Sys2Proof.Machine
end

