-- ==== Sys2Proof/Proofs/BitOriented.lean ====
section
/-! PROOFS. Operations of the bit-oriented page (41_bit_oriented.md): the bit test and its skip as one move of pc after the read,
and the cycles of an instruction whose only second cycle comes from its test. -/

namespace Sys2Proof.Machine

/-! ### The bit test (R153, R154) -/

/-- A skip after the move of pc (R25) assigns pc once: pc + 2 takes the place of pc + 1. -/
theorem skipIf_advance (cond : Bool) (s : State) :
    skipIf cond s.pc s.advance = s.setPc (if cond then s.pc + 2 else s.pc + 1) := by
  cases cond <;> rfl

/-- A bit test has a next state wherever RegMap defines the register: the read, which leaves pc where it was, and then pc. -/
theorem finish_bitTestOp_of_some {inp : StepInput} {sense : Bool} {f : FileAddr} {b : BitNum} {s : State} {r : FileReg}
    (h : fileReg s f = some r) :
    finish (bitTestOp defaultRegMap inp sense f b s)
      = .next ((afterRead r s).setPc (if (readValue r s).getLsbD b.toNat == sense then s.pc + 2 else s.pc + 1)) := by
  have hskip := skipIf_advance ((readValue r s).getLsbD b.toNat == sense) (afterRead r s)
  rw [afterRead_pc] at hskip
  rw [bitTestOp_of_some h, finish_ok, hskip]

theorem exec_btfsc_of_some {f : FileAddr} {b : BitNum} {s : State} {r : FileReg} (h : fileReg s f = some r) :
    exec (.btfsc f b) s
      = .next ((afterRead r s).setPc (if (readValue r s).getLsbD b.toNat == false then s.pc + 2 else s.pc + 1)) :=
  finish_bitTestOp_of_some h

theorem exec_btfss_of_some {f : FileAddr} {b : BitNum} {s : State} {r : FileReg} (h : fileReg s f = some r) :
    exec (.btfss f b) s
      = .next ((afterRead r s).setPc (if (readValue r s).getLsbD b.toNat == true then s.pc + 2 else s.pc + 1)) :=
  finish_bitTestOp_of_some h

/-! ### The cycles of a bit test (R229) -/

theorem fileValue_of_some {f : FileAddr} {s : State} {r : FileReg} (h : fileReg s f = some r) : fileValue s f = readValue r s := by
  simp [fileValue, h]

/-- An instruction that transfers no control and writes no file register takes a second cycle exactly when its test is true. -/
theorem cycles_of_test {i : Instr} {s : State} (htransfers : i.transfers = false) (hwritten : i.fileWritten = none) :
    cycles i s = if testHolds i s then 2 else 1 := by
  simp [cycles, htransfers, writesPcl, hwritten]

theorem cycles_btfsc_of_some {f : FileAddr} {b : BitNum} {s : State} {r : FileReg} (h : fileReg s f = some r) :
    cycles (.btfsc f b) s = if (readValue r s).getLsbD b.toNat == false then 2 else 1 := by
  rw [cycles_of_test rfl rfl, testHolds, fileValue_of_some h]

theorem cycles_btfss_of_some {f : FileAddr} {b : BitNum} {s : State} {r : FileReg} (h : fileReg s f = some r) :
    cycles (.btfss f b) s = if (readValue r s).getLsbD b.toNat == true then 2 else 1 := by
  rw [cycles_of_test rfl rfl, testHolds, fileValue_of_some h]

/-- Settles O27: the test is the same in the next state and in the cycles, so the two values of the bit read decide all four. -/
theorem bitTestSkip : Obligations.BitTestSkip := by
  refine ⟨encoded_of_mem_opcodeRows (by simp [opcodeRows, bitRows]),
    encoded_of_mem_opcodeRows (by simp [opcodeRows, bitRows]), ?_⟩
  rintro s f b r v hr rfl
  rw [exec_btfsc_of_some hr, exec_btfss_of_some hr, cycles_btfsc_of_some hr, cycles_btfss_of_some hr]
  cases (readValue r s).getLsbD b.toNat with
  | false | true => exact ⟨rfl, rfl, rfl, rfl⟩

end Sys2Proof.Machine
end

