-- ==== Sys2Proof/Proofs/LiteralControl.lean ====
section
/-! PROOFS. Operations of the literal and control page (42_literal_control.md): the page target as a number, the cycles of an
instruction that transfers control, and GOTO. -/

namespace Sys2Proof.Machine

/-! ### The target in a page (R71) -/

/-- The page that PCLATH<4:3> selects: the upper two of PCLATH's five bits. -/
theorem pclath_page_toNat (s : State) : (s.pclath.extractLsb' 3 2).toNat = s.pclath.toNat / 8 := by
  have hlt : s.pclath.toNat < 32 := s.pclath.isLt
  have hslice : (s.pclath.extractLsb' 3 2).toNat = s.pclath.toNat / 8 % 4 := by
    simp [BitVec.extractLsb'_toNat, Nat.shiftRight_eq_div_pow]
  omega

/-- A page is 2048 words, so the page number counts in 2048s and the literal is the place in the page. -/
theorem pageTarget_toNat (s : State) (k : PageAddr) : (pageTarget s k).toNat = 2048 * (s.pclath.toNat / 8) + k.toNat := by
  rw [pageTarget, BitVec.toNat_append, ← Nat.shiftLeft_add_eq_or_of_lt k.isLt, pclath_page_toNat, Nat.shiftLeft_eq,
    Nat.mul_comm]

/-! ### GOTO (R165) -/

theorem exec_goto (k : PageAddr) (s : State) : exec (.goto k) s = .next { s with pc := pageTarget s k } := rfl

/-- An instruction that always transfers control takes two cycles in every state (R230). -/
theorem cycles_eq_two_of_transfers {i : Instr} {s : State} (htransfers : i.transfers = true) : cycles i s = 2 := by
  simp [cycles, htransfers]

/-- Settles O30: the target is `pageTarget`, the one component that the arm assigns. -/
theorem gotoInPage : Obligations.GotoInPage := by
  refine ⟨encoded_of_mem_opcodeRows (by simp [opcodeRows, literalRows]), ?_⟩
  intro s k
  exact ⟨pageTarget s k, pageTarget_toNat s k, exec_goto k s, cycles_eq_two_of_transfers rfl⟩

end Sys2Proof.Machine
end

section
/-! PROOFS. The canonical encoding and the opcode map by bits (30_encoding.md): decoding the encoding, the two decoders' agreement,
the unassigned words, and assembling against disassembling. -/

namespace Sys2Proof

open Sys2Proof.Machine

/-! ### Decoding the canonical encoding (R103) -/

/-- A literal stands in the low 8 bits, so clearing don't-care bits above them leaves the canonical word of its format alone. -/
theorem encodeLiteral_cleared {value : Word} (dontCare : Word) (hvalue : value &&& ~~~dontCare = value)
    (hlow : sliceMask 0 8 &&& ~~~dontCare = sliceMask 0 8) (k : Byte) :
    encodeLiteral value k &&& ~~~dontCare = encodeLiteral value k := by
  have hk : k.setWidth 14 &&& sliceMask 0 8 = k.setWidth 14 := by simpa using slice_within 0 k
  have hclear : k.setWidth 14 &&& ~~~dontCare = k.setWidth 14 := by rw [← hk, BitVec.and_assoc, hlow]
  rw [encodeLiteral, BitVec.and_comm, BitVec.and_or_distrib_left, BitVec.and_comm, hvalue, BitVec.and_comm, hclear]

/-- The canonical encoding has 0 in every don't-care bit (R103). -/
theorem encode_cleared (i : Instr) : encode i &&& ~~~(dontCareMask i) = encode i := by
  have hall : ~~~(0x0000 : Word) = BitVec.allOnes 14 := rfl
  cases i with
  | addlw k | sublw k => exact encodeLiteral_cleared 0x0100 (by decide) (by decide) k
  | movlw k | retlw k => exact encodeLiteral_cleared 0x0300 (by decide) (by decide) k
  | clrw | nop => decide
  | _ => simp only [dontCareMask, hall, BitVec.and_allOnes]

/-- Settles O4: the canonical word, its don't-care bits cleared, is the canonical word, so it is one of the instruction's words. -/
theorem decodeOfEncode : Obligations.DecodeOfEncode := fun i => (wordsOfAnInstruction (encode i) i).2 (encode_cleared i)

/-! ### Words by their upper bits (R100) -/

/-- The bits of a word from bit k up are a number: the word divided by the weight of bit k. -/
theorem and_upperMask_eq_iff (k : Nat) (hk : k ≤ 14) (ir v : Word) :
    ir &&& sliceMask k (14 - k) = v &&& sliceMask k (14 - k) ↔ ir.toNat / 2 ^ k = v.toNat / 2 ^ k := by
  have hslice (u : Word) : (u.extractLsb' k (14 - k)).toNat = u.toNat / 2 ^ k := by
    rw [BitVec.extractLsb'_toNat, Nat.shiftRight_eq_div_pow, Nat.mod_eq_of_lt]
    rw [Nat.div_lt_iff_lt_mul (Nat.two_pow_pos k), ← pow_add, Nat.sub_add_cancel hk]
    exact u.isLt
  have hv : v &&& sliceMask k (14 - k) = (v.extractLsb' k (14 - k)).setWidth 14 <<< k :=
    (and_sliceMask_eq_iff (by omega) v _).2 rfl
  rw [hv, and_sliceMask_eq_iff (by omega), ← BitVec.toNat_inj, hslice, hslice]

/-- A word that agrees with a value from bit k up agrees with it in a mask of the bits from k up. -/
theorem and_eq_of_upper (k : Nat) {mask value ir : Word} (hupper : ir.toNat / 2 ^ k = value.toNat / 2 ^ k)
    (hmask : mask = sliceMask k (14 - k) := by decide) (hvalue : value &&& mask = value := by decide) (hk : k ≤ 14 := by decide) :
    ir &&& mask = value := by
  subst hmask
  exact ((and_upperMask_eq_iff k hk ir value).2 hupper).trans hvalue

/-- A word decodes to the instruction whose canonical word it is once the instruction's don't-care bits are cleared (R102). -/
theorem decode_of_cleared {ir : Word} {i : Instr} (h : ir &&& ~~~(dontCareMask i) = encode i) : decode ir = some i :=
  (wordsOfAnInstruction ir i).2 h

/-- A word of a byte-oriented row is the canonical word of its own fields. -/
theorem cleared_eq_encodeByte {value ir : Word} (hvalue : value &&& 0x3F00 = value) (hupper : ir.toNat / 256 = value.toNat / 256) :
    ir &&& ~~~0x0000 = encodeByte value (fieldF ir) (fieldD ir) :=
  (cleared_eq_encodeByte_iff hvalue ir _ _).2 ⟨and_eq_of_upper 8 hupper (hvalue := hvalue), rfl, rfl⟩

/-- A word of a bit-oriented row is the canonical word of its own fields. -/
theorem cleared_eq_encodeBit {value ir : Word} (hvalue : value &&& 0x3C00 = value) (hupper : ir.toNat / 1024 = value.toNat / 1024) :
    ir &&& ~~~0x0000 = encodeBit value (fieldF ir) (fieldB ir) :=
  (cleared_eq_encodeBit_iff hvalue ir _ _).2 ⟨and_eq_of_upper 10 hupper (hvalue := hvalue), rfl, rfl⟩

/-- A word of a row with one operand in the low bits is, its don't-care bits cleared, the canonical word of its own field. -/
theorem cleared_eq_low (dontCare : Word) (k n : Nat) {value ir : Word} (hupper : ir.toNat / 2 ^ k = value.toNat / 2 ^ k)
    (hfits : n ≤ 14 := by decide) (hcover : ~~~dontCare = sliceMask k (14 - k) ||| sliceMask 0 n := by decide)
    (hdisjoint : sliceMask k (14 - k) &&& sliceMask 0 n = 0 := by decide)
    (hvalue : value &&& sliceMask k (14 - k) = value := by decide) (hk : k ≤ 14 := by decide) :
    ir &&& ~~~dontCare = value ||| (ir.extractLsb' 0 n).setWidth 14 :=
  (cleared_eq_low_iff dontCare _ ir _ hfits hcover hdisjoint hvalue).2 ⟨and_eq_of_upper k hupper rfl hvalue hk, rfl⟩

/-- A word with bits that every row of the map contradicts decodes to nothing. -/
theorem decode_eq_none_of_conflict {value mask : Word}
    (hconflict : ∀ row ∈ opcodeRows, value &&& row.mask ≠ row.value &&& mask) {ir : Word} (hir : ir &&& mask = value) :
    decode ir = none := by
  rw [decode_eq_none_iff]
  intro row hm haccepts
  apply hconflict row hm
  rw [← hir, ← haccepts, BitVec.and_assoc, BitVec.and_assoc, BitVec.and_comm mask]

/-! ### The opcode map by bits is the decoder (R100, R101) -/

theorem slice_12_2_toNat (ir : Word) : (ir.extractLsb' 12 2).toNat = ir.toNat / 4096 := by
  have := ir.isLt
  rw [BitVec.extractLsb'_toNat, Nat.shiftRight_eq_div_pow]; omega

theorem slice_10_2_toNat (ir : Word) : (ir.extractLsb' 10 2).toNat = ir.toNat / 1024 % 4 := by
  rw [BitVec.extractLsb'_toNat, Nat.shiftRight_eq_div_pow]

theorem slice_8_4_toNat (ir : Word) : (ir.extractLsb' 8 4).toNat = ir.toNat / 256 % 16 := by
  rw [BitVec.extractLsb'_toNat, Nat.shiftRight_eq_div_pow]

theorem slice_0_7_toNat (ir : Word) : (ir.extractLsb' 0 7).toNat = ir.toNat % 128 := by
  rw [BitVec.extractLsb'_toNat, Nat.shiftRight_eq_div_pow]; simp

theorem getLsbD_eleven_iff (ir : Word) : ir.getLsbD 11 = true ↔ ir.toNat / 2048 % 2 = 1 := by
  simp [BitVec.getLsbD, Nat.testBit_eq_decide_div_mod_eq]

/-- A word of the no-operand group that is none of the nine words of R101: the rows that fix the group's seven upper bits to 0 are
those nine words', and every other row asks for another group. -/
theorem decode_noOperand_none {ir : Word} (hgroup : ir.toNat < 128)
    (hnop : ir.toNat % 32 ≠ 0) (hret : ir.toNat ≠ 0x08) (hretfie : ir.toNat ≠ 0x09) (hsleep : ir.toNat ≠ 0x63)
    (hclrwdt : ir.toNat ≠ 0x64) : decode ir = none := by
  have hrows : ∀ row ∈ opcodeRows, 0x0000 &&& row.mask = row.value &&& 0x3F80 →
      (row.mask = 0x3F9F ∧ row.value = 0) ∨ (row.mask = 0x3FFF ∧ row.value ∈ [0x0008, 0x0009, 0x0063, 0x0064]) := by
    simp only [opcodeRows, byteRows, bitRows, literalRows, List.cons_append, List.nil_append]
    decide
  have hir : ir &&& 0x3F80 = 0x0000 := (and_upperMask_eq_iff 7 (by decide) ir 0).2 (by simp; omega)
  rw [decode_eq_none_iff]
  intro row hm haccepts
  have hagree : 0x0000 &&& row.mask = row.value &&& 0x3F80 := by
    rw [← hir, ← haccepts, BitVec.and_assoc, BitVec.and_assoc, BitVec.and_comm row.mask]
  rcases hrows row hm hagree with ⟨hmask, hvalue⟩ | ⟨hmask, hvalue⟩
  · rw [hmask, hvalue] at haccepts
    have hlow : ir &&& sliceMask 0 5 = (0 : BitVec 5).setWidth 14 <<< 0 := by
      have h := congrArg (· &&& sliceMask 0 5) haccepts
      rw [BitVec.and_assoc] at h
      exact h
    have h := congrArg BitVec.toNat ((and_sliceMask_eq_iff (by decide) ir 0).1 hlow)
    rw [BitVec.extractLsb'_toNat, Nat.shiftRight_eq_div_pow] at h
    simp at h
    omega
  · rw [hmask, show (0x3FFF : Word) = BitVec.allOnes 14 from rfl, BitVec.and_allOnes] at haccepts
    subst haccepts
    simp only [List.mem_cons, List.not_mem_nil, or_false] at hvalue
    rcases hvalue with h | h | h | h <;> simp [h] at *

theorem decode_noOperandGroup {ir : Word} (hgroup : ir.toNat < 128) : decode ir = decodeNoOperand ir := by
  have hir (n : Nat) (h : ir.toNat = n) : ir = BitVec.ofNat 14 n := by rw [← h, BitVec.ofNat_toNat, BitVec.setWidth_eq]
  have hlow : ir.toNat % 128 = ir.toNat := Nat.mod_eq_of_lt hgroup
  simp only [decodeNoOperand, slice_0_7_toNat, hlow]
  split
  case h_9 _ h1 h2 h3 h4 h5 h6 h7 h8 =>
    simp only [imp_false] at h1 h2 h3 h4
    exact decode_noOperand_none hgroup (by omega) h5 h6 h7 h8
  all_goals
    next h =>
    rw [hir _ h]
    decide

theorem decode_byteGroup {ir : Word} (hgroup : ir.toNat / 4096 = 0) : decode ir = decodeByteGroup ir := by
  simp only [decodeByteGroup, slice_8_4_toNat, getLsbD_seven_iff]
  split
  case h_1 =>
    split
    · exact decode_of_cleared (cleared_eq_low 0x0000 7 7 (by simp; omega))
    · exact decode_noOperandGroup (by omega)
  case h_2 =>
    split
    · exact decode_of_cleared (cleared_eq_low 0x0000 7 7 (by simp; omega))
    · exact decode_of_cleared (and_eq_of_upper 7 (by simp [encode]; omega))
  case h_16 =>
    simp only [imp_false] at *
    exact decode_of_cleared (cleared_eq_encodeByte (by decide) (by simp; omega))
  all_goals exact decode_of_cleared (cleared_eq_encodeByte (by decide) (by simp; omega))

theorem decode_bitGroup {ir : Word} (hgroup : ir.toNat / 4096 = 1) : decode ir = decodeBitGroup ir := by
  simp only [decodeBitGroup, slice_10_2_toNat]
  split
  case h_4 =>
    simp only [imp_false] at *
    exact decode_of_cleared (cleared_eq_encodeBit (by decide) (by simp; omega))
  all_goals exact decode_of_cleared (cleared_eq_encodeBit (by decide) (by simp; omega))

/-- No row of the map takes a word of 0x3B00 to 0x3BFF (R104). -/
theorem decode_3B {ir : Word} (hupper : ir.toNat / 256 = 0x3B) : decode ir = none := by
  have hrows : ∀ row ∈ opcodeRows, 0x3B00 &&& row.mask ≠ row.value &&& 0x3F00 := by
    simp only [opcodeRows, byteRows, bitRows, literalRows, List.cons_append, List.nil_append]
    decide
  exact decode_eq_none_of_conflict hrows ((and_upperMask_eq_iff 8 (by decide) ir 0x3B00).2 (by simp; omega))

theorem decode_literalGroup {ir : Word} (hgroup : ir.toNat / 4096 = 3) : decode ir = decodeLiteralGroup ir := by
  simp only [decodeLiteralGroup, slice_8_4_toNat]
  split
  case h_9 | h_10 | h_11 => exact decode_of_cleared (cleared_eq_low 0x0000 8 8 (by simp; omega))
  case h_12 => exact decode_3B (by omega)
  case h_13 | h_14 => exact decode_of_cleared (cleared_eq_low 0x0100 9 8 (by simp; omega))
  case h_15 =>
    simp only [imp_false] at *
    exact decode_of_cleared (cleared_eq_low 0x0100 9 8 (by simp; omega))
  all_goals exact decode_of_cleared (cleared_eq_low 0x0300 10 8 (by simp; omega))

/-- Settles O3: in each of the four groups by `ir[13:12]` the case split asks for the bits that the one row it names fixes. -/
theorem decodersAgree : Obligations.DecodersAgree := by
  intro ir
  have hlt := ir.isLt
  simp only [decodeByBits, slice_12_2_toNat, getLsbD_eleven_iff]
  split
  case h_1 hgroup => exact decode_byteGroup hgroup
  case h_2 hgroup => exact decode_bitGroup hgroup
  case h_3 hgroup =>
    split
    · exact decode_of_cleared (cleared_eq_low 0x0000 11 11 (by simp; omega))
    · exact decode_of_cleared (cleared_eq_low 0x0000 11 11 (by simp; omega))
  case h_4 =>
    simp only [imp_false] at *
    exact decode_literalGroup (by omega)

/-! ### The unassigned words (R104) -/

theorem decodeNoOperand_eq_none_iff (ir : Word) :
    decodeNoOperand ir = none ↔ ir.toNat % 128 ∉ [0x00, 0x20, 0x40, 0x60, 0x08, 0x09, 0x63, 0x64] := by
  simp only [decodeNoOperand, slice_0_7_toNat]
  split <;> simp_all

theorem decodeByteGroup_eq_none_iff (ir : Word) :
    decodeByteGroup ir = none ↔ ir.toNat / 128 % 32 = 0 ∧ decodeNoOperand ir = none := by
  simp only [decodeByteGroup, slice_8_4_toNat, getLsbD_seven_iff]
  split
  case h_1 =>
    split
    · simp; omega
    · have hlow : ir.toNat / 128 % 32 = 0 := by omega
      simp [hlow]
  case h_2 => split <;> simp <;> omega
  case h_16 =>
    simp only [imp_false] at *
    simp
    omega
  all_goals simp; omega

theorem decodeBitGroup_ne_none (ir : Word) : decodeBitGroup ir ≠ none := by
  unfold decodeBitGroup
  split <;> simp

theorem decodeLiteralGroup_eq_none_iff (ir : Word) : decodeLiteralGroup ir = none ↔ ir.toNat / 256 % 16 = 11 := by
  simp only [decodeLiteralGroup, slice_8_4_toNat]
  split <;> simp_all

/-- Settles O6: by the map by bits, the only words without an instruction are those of the no-operand group that none of its nine
words are, and those of the literal group with `ir[11:8] = 1011`. -/
theorem unassignedWords : Obligations.UnassignedWords := by
  intro ir
  have hlt := ir.isLt
  rw [decodersAgree ir]
  simp only [decodeByBits, slice_12_2_toNat]
  split
  case h_1 =>
    simp only [decodeByteGroup_eq_none_iff, decodeNoOperand_eq_none_iff, List.mem_cons, List.not_mem_nil, or_false]
    omega
  case h_2 => simp only [decodeBitGroup_ne_none, false_iff]; omega
  case h_3 => split <;> simp <;> omega
  case h_4 =>
    simp only [imp_false] at *
    rw [decodeLiteralGroup_eq_none_iff]
    omega

end Sys2Proof
end

section
/-! PROOFS. The assembler's view (30_encoding.md section 5): a statement and its instruction, and the operands a form admits. -/

namespace Sys2Proof

open Sys2Proof.Machine

/-! ### The statement of an instruction (R108, R110) -/

theorem wellFormed_toAsm (i : Instr) : i.toAsm.wellFormed = true := by
  cases i with
  | addwf f d | andwf f d | comf f d | decf f d | decfsz f d | incf f d | incfsz f d | iorwf f d | movf f d | rlf f d | rrf f d
  | subwf f d | swapf f d | xorwf f d => exact Laws.AsmWellFormed.of_form rfl (Laws.AsmWellFormed.fileDest_ok f d)
  | clrf f | movwf f => exact Laws.AsmWellFormed.of_form rfl (Laws.AsmWellFormed.file_ok f)
  | bcf f b | bsf f b | btfsc f b | btfss f b => exact Laws.AsmWellFormed.of_form rfl (Laws.AsmWellFormed.fileBit_ok f b)
  | addlw k | andlw k | iorlw k | movlw k | retlw k | sublw k | xorlw k =>
    exact Laws.AsmWellFormed.of_form rfl (Laws.AsmWellFormed.literal_ok k)
  | call k | goto k => exact Laws.AsmWellFormed.of_form rfl (Laws.AsmWellFormed.target_ok k)
  | clrw | nop | clrwdt | retfie | ret | sleep => rfl

theorem destOperand_number (d : Dest) : destOperand (some d.number) = d := by cases d <;> rfl

/-- An operand is printed as a number and read back at its own width. -/
theorem operand_readBack {n : Nat} (k : BitVec n) : BitVec.ofNat n k.toNat = k := by simp

/-- Reading the statement an instruction prints as gives the instruction: its mnemonic is found, and its operands are read back. -/
theorem ofAsm_toAsm (i : Instr) : Instr.ofAsm i.toAsm = some i := by
  cases i with
  | addwf f d | andwf f d | comf f d | decf f d | decfsz f d | incf f d | incfsz f d | iorwf f d | movf f d | rlf f d | rrf f d
  | subwf f d | swapf f d | xorwf f d => exact congrArg some (congrArg₂ _ (operand_readBack f) (destOperand_number d))
  | bcf f b | bsf f b | btfsc f b | btfss f b =>
    exact congrArg some (congrArg₂ _ (operand_readBack f) (operand_readBack b))
  | clrf f | movwf f => exact congrArg some (congrArg _ (operand_readBack f))
  | addlw k | andlw k | iorlw k | movlw k | retlw k | sublw k | xorlw k | call k | goto k =>
    exact congrArg some (congrArg _ (operand_readBack k))
  | clrw | nop | clrwdt | retfie | ret | sleep => rfl

theorem assemble_toAsm (i : Instr) : assemble i.toAsm = some (encode i) := by
  simp [assemble, wellFormed_toAsm, ofAsm_toAsm]

theorem disassemble_of_decode {ir : Word} {i : Instr} (h : decode ir = some i) : disassemble ir = some i.toAsm := by
  simp [disassemble, h]

/-! ### Which statements assemble (R106, R108) -/

/-- The instructions are read from a list with the mnemonics of the operand forms. -/
theorem ofAsm_eq_lookup (line : AsmLine) :
    ∃ l : List (String × Instr), Instr.ofAsm line = l.lookup line.mnemonic ∧ l.map Prod.fst = operandForms.map Prod.fst :=
  ⟨_, rfl, rfl⟩

/-- A key is found in a list exactly when it is one of the keys listed. -/
theorem lookup_ne_none_iff {α : Type} (l : List (String × α)) (m : String) : l.lookup m ≠ none ↔ m ∈ l.map Prod.fst := by
  simp only [ne_eq, List.lookup_eq_none_iff, List.mem_map, bne_iff_ne]
  grind

/-- Every mnemonic with an operand form is the mnemonic of an instruction. -/
theorem ofAsm_ne_none {line : AsmLine} (h : operandForms.lookup line.mnemonic ≠ none) : Instr.ofAsm line ≠ none := by
  obtain ⟨l, hread, hkeys⟩ := ofAsm_eq_lookup line
  rw [hread, lookup_ne_none_iff, hkeys]
  exact (lookup_ne_none_iff _ _).1 h

theorem lookup_of_wellFormed {line : AsmLine} (h : line.wellFormed = true) :
    ∃ form, operandForms.lookup line.mnemonic = some form ∧ operandsInRange form line.operands = true := by
  unfold AsmLine.wellFormed at h
  cases hform : operandForms.lookup line.mnemonic with
  | none => simp [hform] at h
  | some form => exact ⟨form, rfl, by simpa [hform] using h⟩

/-- A statement is well formed exactly when its mnemonic has an operand form and its operands fit it. -/
theorem wellFormed_iff (line : AsmLine) :
    line.wellFormed = true ↔ ∃ form, (line.mnemonic, form) ∈ operandForms ∧ operandsInRange form line.operands = true := by
  constructor
  · intro h
    obtain ⟨form, hform, hrange⟩ := lookup_of_wellFormed h
    obtain ⟨pre, post, hsplit, -⟩ := List.lookup_eq_some_iff.1 hform
    exact ⟨form, by simp [hsplit], hrange⟩
  · rintro ⟨form, hmem, hrange⟩
    exact Laws.AsmWellFormed.of_form (lookup_operandForms _ hmem) hrange

/-- A statement assembles exactly when it is well formed. -/
theorem assemble_ne_none_iff (line : AsmLine) : assemble line ≠ none ↔ line.wellFormed = true := by
  unfold assemble
  split
  · next h =>
    obtain ⟨form, hform, -⟩ := lookup_of_wellFormed h
    have hread : Instr.ofAsm line ≠ none := ofAsm_ne_none (by simp [hform])
    simpa [h] using hread
  · next h => simp [h]

theorem inRange_fileDest_iff (l : List Nat) :
    operandsInRange .fileDest l = true ↔ ∃ f, f ≤ 127 ∧ (l = [f] ∨ ∃ d, d ≤ 1 ∧ l = [f, d]) := by
  unfold operandsInRange
  split <;> simp_all

theorem inRange_file_iff (l : List Nat) : operandsInRange .file l = true ↔ ∃ f, f ≤ 127 ∧ l = [f] := by
  unfold operandsInRange
  split <;> simp_all

theorem inRange_fileBit_iff (l : List Nat) : operandsInRange .fileBit l = true ↔ ∃ f b, f ≤ 127 ∧ b ≤ 7 ∧ l = [f, b] := by
  unfold operandsInRange
  split <;> simp_all

theorem inRange_literal_iff (l : List Nat) : operandsInRange .literal l = true ↔ ∃ k, k ≤ 255 ∧ l = [k] := by
  unfold operandsInRange
  split <;> simp_all

theorem inRange_target_iff (l : List Nat) : operandsInRange .target l = true ↔ ∃ k, k ≤ 2047 ∧ l = [k] := by
  unfold operandsInRange
  split <;> simp_all

theorem inRange_none_iff (l : List Nat) : operandsInRange .none l = true ↔ l = [] := by
  unfold operandsInRange
  split <;> simp_all

/-- Settles O7: printing and reading are inverse on instructions, encoding and decoding too (O4), and a statement assembles exactly
when it is well formed, which the six operand forms spell out. -/
theorem assembleDisassemble : Obligations.AssembleDisassemble := by
  refine ⟨fun i => ⟨assemble_toAsm i, disassemble_of_decode (decodeOfEncode i)⟩, fun ir i => disassemble_of_decode,
    fun line => ⟨?_, ?_⟩⟩
  · rw [← not_iff_not, ← ne_eq, assemble_ne_none_iff, Bool.not_eq_false]
  · rw [assemble_ne_none_iff, wellFormed_iff]
    refine exists_congr fun form => and_congr_right fun _ => ?_
    cases form with
    | fileDest => exact inRange_fileDest_iff _
    | file => exact inRange_file_iff _
    | fileBit => exact inRange_fileBit_iff _
    | literal => exact inRange_literal_iff _
    | target => exact inRange_target_iff _
    | none => exact inRange_none_iff _

/-! ### Sample words -/

/-- Settles O9: nine words, each decoded. -/
theorem sampleWordsDecode : Obligations.SampleWordsDecode := by
  refine ⟨?_, ?_, ?_, ?_, ?_, ?_, ?_, ?_, ?_⟩ <;> decide

end Sys2Proof
end

section
/-! PROOFS. The file registers (10_state.md section 9): data addresses, the default RegMap's table, and what reads and writes of the
special registers give. -/

namespace Sys2Proof.Machine

/-! ### Data addresses (R46, R47) -/

/-- The number of an address put together from two parts. -/
theorem toNat_append_eq_add {m n : Nat} (hi : BitVec m) (lo : BitVec n) :
    (hi ++ lo).toNat = 2 ^ n * hi.toNat + lo.toNat := by
  rw [BitVec.toNat_append, ← Nat.shiftLeft_add_eq_or_of_lt lo.isLt, Nat.shiftLeft_eq, Nat.mul_comm]

theorem dataAddress_direct_toNat (s : State) {f : FileAddr} (hf : f ≠ 0x00) :
    (dataAddress s f).toNat = 128 * s.rp.toNat + f.toNat := by
  have hdirect : dataAddress s f = s.rp ++ f := if_neg hf
  rw [hdirect]
  exact toNat_append_eq_add s.rp f

theorem dataAddress_indirect_toNat (s : State) : (dataAddress s 0x00).toNat = 256 * s.irp.toNat + s.fsr.toNat := by
  have hindirect : dataAddress s 0x00 = BitVec.ofBool s.irp ++ s.fsr := if_pos rfl
  rw [hindirect, ← BitVec.toNat_ofBool]
  exact toNat_append_eq_add (BitVec.ofBool s.irp) s.fsr

/-- Settles O10: the address is its two parts put together, f telling which two. -/
theorem dataAddressing : Obligations.DataAddressing := fun s _ =>
  ⟨dataAddress_direct_toNat s, dataAddress_indirect_toNat s⟩

/-! ### The default RegMap's table (R45, R50) -/

/-- The table by numbers: the place in the bank and the bank are the remainder and the quotient of the address by 128. -/
theorem selectReg_of_no_extra {p : Params} (hextra : p.extra = []) (a : DataAddr) :
    selectReg p a =
      if a.toNat % 128 = 0x00 then some .indf
      else if a.toNat % 128 = 0x01 then some (if a.toNat / 128 % 2 = 0 then .tmr0 else .option)
      else if a.toNat % 128 = 0x02 then some .pcl
      else if a.toNat % 128 = 0x03 then some .status
      else if a.toNat % 128 = 0x04 then some .fsr
      else if a.toNat % 128 = 0x0A then some .pclath
      else if a.toNat % 128 = 0x0B then some .intcon
      else if 0x70 ≤ a.toNat % 128 then some (.storage (a.toNat % 128))
      else if a.toNat / 128 = 0 ∧ 0x20 ≤ a.toNat % 128 then some (.storage (a.toNat % 128))
      else none := by
  have hlow : (a.extractLsb' 0 7).toNat = a.toNat % 128 := by simp [BitVec.extractLsb'_toNat]
  have hbank : (a.extractLsb' 7 2).toNat = a.toNat / 128 := by
    have := a.isLt
    rw [BitVec.extractLsb'_toNat, Nat.shiftRight_eq_div_pow]; omega
  simp only [selectReg, hextra, Memory.read?_nil, hlow, hbank]

/-- Settles O11: each clause fixes the answers to the table's questions. -/
theorem defaultRegisterMap : Obligations.DefaultRegisterMap := by
  intro p a hextra
  have hlt := a.isLt
  rw [selectReg_of_no_extra hextra]
  refine ⟨?_, ?_, ?_, ?_, ?_, ?_, ?_, ?_, ?_, ?_, ?_, ?_⟩
  · intro h; simp [h]
  · intro h
    have hbank : a.toNat / 128 % 2 = 0 ↔ a.toNat / 128 = 0 ∨ a.toNat / 128 = 2 := by omega
    simp only [h, hbank, reduceIte, one_ne_zero]
  · intro h; simp [h]
  · intro h; simp [h]
  · intro h; simp [h]
  · intro h; simp [h]
  · intro h; simp [h]
  · intro h; simp (disch := omega) only [if_neg, if_pos]
  · intro h
    rw [Nat.mod_eq_of_lt (show a.toNat < 128 by omega)]
    simp (disch := omega) only [if_neg, if_pos]
  · intro h; simp (disch := omega) only [if_neg]
  · intro h; simp (disch := omega) only [if_neg]
  · intro h; simp (disch := omega) only [if_neg]

/-! ### Writes and reads of the control registers (R39, R45) -/

/-- Two bytes are equal when their eight bits are. -/
theorem byte_ext {u v : Byte} (h : ∀ n < 8, u.getLsbD n = v.getLsbD n) : u = v := BitVec.eq_of_getLsbD_eq h

theorem readValue_writeReg_intcon (masked : Bool) (v : Byte) (s : State) :
    readValue .intcon (writeReg masked .intcon v s) = v := by
  refine byte_ext fun n hn => ?_
  change (BitVec.ofBool (v.getLsbD 7) ++ v.setWidth 7).getLsbD n = _
  rw [BitVec.getLsbD_append]
  by_cases h7 : n < 7
  · simp [h7]
  · simp [show n = 7 by omega]

theorem readValue_writeReg_pclath (masked : Bool) (v : Byte) (s : State) :
    readValue .pclath (writeReg masked .pclath v s) = v &&& 0x1F := by
  have hmask : v.toNat &&& 31 = v.toNat % 32 := Nat.and_two_pow_sub_one_eq_mod v.toNat 5
  rw [← BitVec.toNat_inj]
  simp [readValue, pclathByte, writeReg, hmask]
  omega

/-- Settles O16: the two reads above; the other reads and all the frames are what the writes are by definition. -/
theorem controlRegisterAccess : Obligations.ControlRegisterAccess := fun masked v s =>
  ⟨⟨readValue_writeReg_intcon masked v s, rfl, rfl⟩, ⟨readValue_writeReg_pclath masked v s, rfl⟩, ⟨rfl, rfl⟩, ⟨rfl, rfl⟩⟩

/-! ### STATUS by its bits (R48) -/

/-- STATUS is a byte when each of its bits is the byte's. -/
theorem statusByte_eq_of_bits {t : State} {x : Byte} (hc : t.c = x.getLsbD 0) (hdc : t.dc = x.getLsbD 1) (hz : t.z = x.getLsbD 2)
    (hnPD : t.nPD = x.getLsbD 3) (hnTO : t.nTO = x.getLsbD 4) (hrp0 : t.rp.getLsbD 0 = x.getLsbD 5)
    (hrp1 : t.rp.getLsbD 1 = x.getLsbD 6) (hirp : t.irp = x.getLsbD 7) : statusByte t = x := by
  obtain ⟨h0, h1, h2, h3, h4, h5, h6, h7⟩ := statusByte_getLsbD t
  refine byte_ext fun n hn => ?_
  interval_cases n <;> simp only [*]

/-- A write of STATUS by an instruction that lists none of C, DC, Z: bits 4:3 stay. -/
theorem statusByte_writeStatus_unmasked (v : Byte) (s : State) :
    statusByte (writeStatus false v s) = (v &&& 0xE7) ||| (statusByte s &&& 0x18) := by
  obtain ⟨h0, h1, h2, h3, h4, h5, h6, h7⟩ := statusByte_getLsbD s
  apply statusByte_eq_of_bits <;> simp [-BitVec.getLsbD_eq_getElem, h0, h1, h2, h3, h4, h5, h6, h7]

/-- A write of STATUS by an instruction that lists any of C, DC, Z: bits 4:0 stay. -/
theorem statusByte_writeStatus_masked (v : Byte) (s : State) :
    statusByte (writeStatus true v s) = (v &&& 0xE0) ||| (statusByte s &&& 0x1F) := by
  obtain ⟨h0, h1, h2, h3, h4, h5, h6, h7⟩ := statusByte_getLsbD s
  apply statusByte_eq_of_bits <;> simp [-BitVec.getLsbD_eq_getElem, h0, h1, h2, h3, h4, h5, h6, h7]

end Sys2Proof.Machine
end

section
/-! PROOFS. What the operations compute: the arithmetic of the status bits (10_state.md section 6), and the next state of every
instruction of the read-modify-write form and of the literal form. -/

namespace Sys2Proof.Machine

/-! ### Sums and their carries (R31 to R33) -/

/-- The bit above an n-bit sum, which is the carry out, is 1 exactly when the numbers add up to 2 ^ n or more. -/
theorem getLsbD_sum_eq_decide {n : Nat} {x : BitVec (n + 1)} : x.getLsbD n = decide (2 ^ n ≤ x.toNat) := by
  have hx := x.isLt
  rw [BitVec.getLsbD, Nat.testBit_eq_decide_div_mod_eq]
  have hdiv : x.toNat / 2 ^ n < 2 := Nat.div_lt_of_lt_mul (by omega)
  have hle : 2 ^ n ≤ x.toNat ↔ 1 ≤ x.toNat / 2 ^ n := by rw [Nat.le_div_iff_mul_le (Nat.two_pow_pos n), one_mul]
  rw [decide_eq_decide, hle]
  generalize x.toNat / 2 ^ n = carry at hdiv ⊢
  omega

theorem carryAdd_eq (a b : Byte) : carryAdd a b = (a.setWidth 9 + b.setWidth 9).getLsbD 8 := by
  have ha := a.isLt
  have hb := b.isLt
  have hsum : (a.setWidth 9 + b.setWidth 9).toNat = a.toNat + b.toNat := by simp; omega
  rw [getLsbD_sum_eq_decide, hsum]
  rfl

theorem digitCarryAdd_eq (a b : Byte) :
    digitCarryAdd a b = ((lowDigit a).setWidth 5 + (lowDigit b).setWidth 5).getLsbD 4 := by
  have ha := (lowDigit a).isLt
  have hb := (lowDigit b).isLt
  have hsum : ((lowDigit a).setWidth 5 + (lowDigit b).setWidth 5).toNat = (lowDigit a).toNat + (lowDigit b).toNat := by
    simp; omega
  rw [getLsbD_sum_eq_decide, hsum]
  rfl

/-- The sum with the complement plus one reaches 256 exactly when there is no borrow. -/
theorem carrySub_eq (m sub : Byte) : carrySub m sub = (m.setWidth 9 + (~~~sub).setWidth 9 + 1).getLsbD 8 := by
  have hm := m.isLt
  have hsub := sub.isLt
  have hsum : (m.setWidth 9 + (~~~sub).setWidth 9 + 1).toNat = m.toNat + (255 - sub.toNat) + 1 := by simp; omega
  rw [getLsbD_sum_eq_decide, hsum, carrySub, decide_eq_decide]
  omega

theorem lowDigit_not_toNat (v : Byte) : (lowDigit (~~~v)).toNat = 15 - (lowDigit v).toNat := by
  simp [lowDigit, BitVec.extractLsb'_toNat]
  omega

theorem digitCarrySub_eq (m sub : Byte) :
    digitCarrySub m sub = ((lowDigit m).setWidth 5 + (lowDigit (~~~sub)).setWidth 5 + 1).getLsbD 4 := by
  have hm := (lowDigit m).isLt
  have hsub := (lowDigit sub).isLt
  have hsum : ((lowDigit m).setWidth 5 + (lowDigit (~~~sub)).setWidth 5 + 1).toNat
      = (lowDigit m).toNat + (15 - (lowDigit sub).toNat) + 1 := by
    simp [lowDigit_not_toNat]; omega
  rw [getLsbD_sum_eq_decide, hsum, digitCarrySub, decide_eq_decide]
  omega

/-- Settles O42: each sum, as a number below twice its top bit, sets that bit exactly when it reaches it. -/
theorem carriesAreAdderCarries : Obligations.CarriesAreAdderCarries := fun a b =>
  ⟨carryAdd_eq a b, digitCarryAdd_eq a b, carrySub_eq a b, digitCarrySub_eq a b⟩

/-- The digit carry as a comparison of the 5-bit sum. -/
theorem digitCarryAdd_eq_decide (a b : Byte) :
    digitCarryAdd a b = decide (16#5 ≤ (a.extractLsb' 0 4).setWidth 5 + (b.extractLsb' 0 4).setWidth 5) := by
  rw [digitCarryAdd_eq, getLsbD_sum_eq_decide]
  rfl

/-- Addition with its status bits, on the 9-bit and the 5-bit sum. -/
theorem aluAdd_eq (a b : Byte) :
    aluAdd a b = ⟨(a.setWidth 9 + b.setWidth 9).setWidth 8,
      { c := some ((a.setWidth 9 + b.setWidth 9).getLsbD 8)
        dc := some (decide (16#5 ≤ (a.extractLsb' 0 4).setWidth 5 + (b.extractLsb' 0 4).setWidth 5))
        z := some (decide ((a.setWidth 9 + b.setWidth 9).setWidth 8 = 0#8)) }⟩ := by
  have hvalue : (a.setWidth 9 + b.setWidth 9).setWidth 8 = a + b := by
    rw [← BitVec.toNat_inj]; simp
  rw [aluAdd, carryAdd_eq, digitCarryAdd_eq_decide, hvalue, zeroFlag]

/-- Subtraction with its status bits, as the sum with the complement plus one and as unsigned comparisons. -/
theorem aluSub_eq (m sub : Byte) :
    aluSub m sub = ⟨m + ~~~sub + 1,
      { c := some (decide (sub ≤ m)), dc := some (decide (sub.extractLsb' 0 4 ≤ m.extractLsb' 0 4)),
        z := some (decide (m = sub)) }⟩ := by
  have hvalue : m - sub = m + ~~~sub + 1 := by
    rw [BitVec.sub_eq_add_neg, BitVec.neg_eq_not_add, BitVec.add_assoc]; rfl
  have hzero : zeroFlag (m - sub) = decide (m = sub) := by
    rw [zeroFlag, decide_eq_decide]; exact sub_eq_zero
  rw [aluSub, hzero, hvalue]
  rfl

theorem aluZ_eq {r r' : Byte} {z : Bool} (hr : r = r') (hz : zeroFlag r = z) : aluZ r = ⟨r', { z := some z }⟩ := by
  rw [aluZ, hr, ← hz, hr]

theorem zeroFlag_not (v : Byte) : zeroFlag (~~~v) = decide (v = 0xFF#8) := by
  rw [zeroFlag, decide_eq_decide]
  bv_omega

theorem zeroFlag_or (u v : Byte) : zeroFlag (u ||| v) = decide (u = 0#8 ∧ v = 0#8) := by
  rw [zeroFlag, decide_eq_decide]
  exact BitVec.or_eq_zero_iff

theorem zeroFlag_xor (u v : Byte) : zeroFlag (u ^^^ v) = decide (u = v) := by
  rw [zeroFlag, decide_eq_decide]
  exact BitVec.xor_eq_zero_iff

theorem zeroFlag_sub_one (v : Byte) : zeroFlag (v - 1) = decide (v = 0x01#8) := by
  rw [zeroFlag, decide_eq_decide]
  bv_omega

theorem zeroFlag_add_one (v : Byte) : zeroFlag (v + 1) = decide (v = 0xFF#8) := by
  rw [zeroFlag, decide_eq_decide]
  bv_omega

theorem complement_eq_sub (v : Byte) : ~~~v = 0xFF - v := by bv_omega

theorem sub_one_eq_ofNat (v : Byte) : v - 1 = BitVec.ofNat 8 (v.toNat + 255) := by
  rw [← BitVec.toNat_inj]
  simp [Nat.add_comm]

theorem add_one_eq_ofNat (v : Byte) : v + 1 = BitVec.ofNat 8 (v.toNat + 1) := by
  rw [← BitVec.toNat_inj]
  simp

/-- The rows of the map are encoded: `encoded_of_mem_opcodeRows` with the search for the row. -/
theorem encoded_of_row {mask value : Word} {build : Word → Instr}
    (h : (⟨value, mask, build⟩ : OpcodeRow) ∈ opcodeRows := by simp [opcodeRows, byteRows, bitRows, literalRows]) :
    Encoded mask value build := encoded_of_mem_opcodeRows h

/-! ### The next states of the read-modify-write form (R121 to R138) -/

section ReadModifyWrite

variable {f : FileAddr} {d : Dest} {s : State} {r : FileReg}

/-- What the form ends in where RegMap defines the register: `Dest(d, f, result)` after the read, the operation's status bits and the
move of pc. The lemmas below say of each instruction that it ends so. -/
def rmwNext (d : Dest) (r : FileReg) (out : AluOut) (s : State) : Host.Outcome State Fault Refusal :=
  .next (stored d out.flags.listsAny r out.value (((afterRead r s).setFlags out.flags).setPc (s.pc + 1)))

theorem exec_addwf_of_some (h : fileReg s f = some r) :
    exec (.addwf f d) s = rmwNext d r (aluAdd s.w (readValue r s)) s := finish_fileOp_of_some h
theorem exec_subwf_of_some (h : fileReg s f = some r) :
    exec (.subwf f d) s = rmwNext d r (aluSub (readValue r s) s.w) s := finish_fileOp_of_some h
theorem exec_andwf_of_some (h : fileReg s f = some r) :
    exec (.andwf f d) s = rmwNext d r (aluZ (s.w &&& readValue r s)) s := finish_fileOp_of_some h
theorem exec_comf_of_some (h : fileReg s f = some r) :
    exec (.comf f d) s = rmwNext d r (aluZ (~~~readValue r s)) s := finish_fileOp_of_some h
theorem exec_iorwf_of_some (h : fileReg s f = some r) :
    exec (.iorwf f d) s = rmwNext d r (aluZ (s.w ||| readValue r s)) s := finish_fileOp_of_some h
theorem exec_xorwf_of_some (h : fileReg s f = some r) :
    exec (.xorwf f d) s = rmwNext d r (aluZ (s.w ^^^ readValue r s)) s := finish_fileOp_of_some h
theorem exec_decf_of_some (h : fileReg s f = some r) :
    exec (.decf f d) s = rmwNext d r (aluZ (readValue r s - 1)) s := finish_fileOp_of_some h
theorem exec_incf_of_some (h : fileReg s f = some r) :
    exec (.incf f d) s = rmwNext d r (aluZ (readValue r s + 1)) s := finish_fileOp_of_some h
theorem exec_movf_of_some (h : fileReg s f = some r) :
    exec (.movf f d) s = rmwNext d r (aluZ (readValue r s)) s := finish_fileOp_of_some h
theorem exec_rlf_of_some (h : fileReg s f = some r) :
    exec (.rlf f d) s = rmwNext d r (aluRlf s.c (readValue r s)) s := finish_fileOp_of_some h
theorem exec_rrf_of_some (h : fileReg s f = some r) :
    exec (.rrf f d) s = rmwNext d r (aluRrf s.c (readValue r s)) s := finish_fileOp_of_some h
theorem exec_bcf_of_some {b : BitNum} (h : fileReg s f = some r) :
    exec (.bcf f b) s = rmwNext .file r (aluPlain (readValue r s &&& ~~~(bitMask b))) s := finish_fileOp_of_some h
theorem exec_bsf_of_some {b : BitNum} (h : fileReg s f = some r) :
    exec (.bsf f b) s = rmwNext .file r (aluPlain (readValue r s ||| bitMask b)) s := finish_fileOp_of_some h

/-- CLRF (R123): the write comes before Z. -/
theorem exec_clrf_of_some (h : fileReg s f = some r) :
    exec (.clrf f) s = .next { writeReg true r 0x00 ((afterRead r s).setPc (s.pc + 1)) with z := true } := by
  change finish (clearOp defaultRegMap {} f s) = _
  rw [clearOp_of_some h, State.advance, afterRead_pc]
  rfl

end ReadModifyWrite

/-- Settles O19: the next states are those of the form, with `aluAdd` and `aluSub` in the sums and comparisons of the rules. -/
theorem addSubtractFile : Obligations.AddSubtractFile := by
  refine ⟨encoded_of_row, encoded_of_row, ?_⟩
  rintro s f d r v hr rfl
  rw [exec_addwf_of_some hr, exec_subwf_of_some hr, aluAdd_eq, aluSub_eq]
  exact ⟨rfl, rfl⟩

/-- Settles O20: the three Z rules that are not on the result itself are those of complement, or and exclusive or. -/
theorem logicFile : Obligations.LogicFile := by
  refine ⟨encoded_of_row, encoded_of_row, encoded_of_row, encoded_of_row, ?_⟩
  rintro s f d r v hr rfl
  rw [exec_andwf_of_some hr, exec_comf_of_some hr, exec_iorwf_of_some hr, exec_xorwf_of_some hr,
    aluZ_eq (complement_eq_sub _) (zeroFlag_not _), aluZ_eq rfl (zeroFlag_or s.w _), aluZ_eq rfl (zeroFlag_xor s.w _)]
  exact ⟨rfl, rfl, rfl, rfl⟩

/-- Settles O21: counting down and up as sums of numbers, with Z on the value read. -/
theorem countMoveFile : Obligations.CountMoveFile := by
  refine ⟨encoded_of_row, encoded_of_row, encoded_of_row, ?_⟩
  rintro s f d r v hr rfl
  rw [exec_decf_of_some hr, exec_incf_of_some hr, exec_movf_of_some hr,
    aluZ_eq (sub_one_eq_ofNat _) (zeroFlag_sub_one _), aluZ_eq (add_one_eq_ofNat _) (zeroFlag_add_one _)]
  exact ⟨rfl, rfl, rfl⟩

/-- Settles O22: CLRF is its own form, CLRW a literal operation on 0x00. -/
theorem clearFileClearW : Obligations.ClearFileClearW :=
  ⟨encoded_of_row, encoded_of_row, fun _ _ _ hr => exec_clrf_of_some hr, fun _ => rfl⟩

/-! ### Rotations (R134, R135) -/

theorem aluRlf_value_getLsbD (c : Bool) (v : Byte) (n : Nat) :
    (aluRlf c v).value.getLsbD n = if n < 1 then (BitVec.ofBool c).getLsbD n else (v.extractLsb' 0 7).getLsbD (n - 1) :=
  BitVec.getLsbD_append

theorem aluRrf_value_getLsbD (c : Bool) (v : Byte) (n : Nat) :
    (aluRrf c v).value.getLsbD n = if n < 7 then (v.extractLsb' 1 7).getLsbD n else (BitVec.ofBool c).getLsbD (n - 7) :=
  BitVec.getLsbD_append

theorem aluRlf_value_bit_zero (c : Bool) (v : Byte) : (aluRlf c v).value.getLsbD 0 = c := by
  rw [aluRlf_value_getLsbD]; simp

theorem aluRlf_value_bit_succ (c : Bool) (v : Byte) {n : Nat} (hn : n < 7) :
    (aluRlf c v).value.getLsbD (n + 1) = v.getLsbD n := by simp [aluRlf_value_getLsbD, hn]

theorem aluRrf_value_bit_seven (c : Bool) (v : Byte) : (aluRrf c v).value.getLsbD 7 = c := by
  rw [aluRrf_value_getLsbD]; simp

theorem aluRrf_value_bit_lt (c : Bool) (v : Byte) {n : Nat} (hn : n < 7) :
    (aluRrf c v).value.getLsbD n = v.getLsbD (n + 1) := by simp [aluRrf_value_getLsbD, hn, Nat.add_comm]

/-- Settles O24: the results are those of `aluRlf` and `aluRrf`, read bit by bit. -/
theorem rotateFile : Obligations.RotateFile := by
  refine ⟨encoded_of_row, encoded_of_row, ?_⟩
  rintro s f d r v hr rfl
  exact ⟨⟨(aluRlf s.c (readValue r s)).value, aluRlf_value_bit_zero _ _, fun n hn => aluRlf_value_bit_succ _ _ hn,
      exec_rlf_of_some hr⟩,
    (aluRrf s.c (readValue r s)).value, aluRrf_value_bit_seven _ _, fun n hn => aluRrf_value_bit_lt _ _ hn,
      exec_rrf_of_some hr⟩

/-! ### Undoing a rotation or a swap -/

theorem aluRrf_aluRlf (c : Bool) (v : Byte) : aluRrf (v.getLsbD 7) (aluRlf c v).value = ⟨v, { c := some c }⟩ := by
  have hvalue : (aluRrf (v.getLsbD 7) (aluRlf c v).value).value = v := by
    refine byte_ext fun n hn => ?_
    by_cases h7 : n = 7
    · rw [h7, aluRrf_value_bit_seven]
    · rw [aluRrf_value_bit_lt _ _ (by omega), aluRlf_value_bit_succ _ _ (by omega)]
  rw [aluRrf, AluOut.mk.injEq]
  exact ⟨hvalue, by rw [aluRlf_value_bit_zero]⟩

theorem aluRlf_aluRrf (c : Bool) (v : Byte) : aluRlf (v.getLsbD 0) (aluRrf c v).value = ⟨v, { c := some c }⟩ := by
  have hvalue : (aluRlf (v.getLsbD 0) (aluRrf c v).value).value = v := by
    refine byte_ext fun n hn => ?_
    cases n with
    | zero => rw [aluRlf_value_bit_zero]
    | succ n => rw [aluRlf_value_bit_succ _ _ (by omega), aluRrf_value_bit_lt _ _ (by omega)]
  rw [aluRlf, AluOut.mk.injEq]
  exact ⟨hvalue, by rw [aluRrf_value_bit_seven]⟩

theorem swapDigits_swapDigits (v : Byte) : swapDigits (swapDigits v) = v := by
  refine byte_ext fun n hn => ?_
  by_cases h4 : n < 4
  · rw [swapDigits_getLsbD_low _ h4, swapDigits_getLsbD_high _ h4]
  · obtain ⟨m, rfl⟩ := Nat.exists_eq_add_of_le' (Nat.le_of_not_lt h4)
    rw [swapDigits_getLsbD_high _ (by omega), swapDigits_getLsbD_low _ (by omega)]

/-- What a read-modify-write of a storage register leaves there and in C; what f selects stays. -/
theorem rmwNext_storage {out : AluOut} {a : Nat} {s t : State} (h : rmwNext .file (.storage a) out s = .next t) :
    readValue (.storage a) t = out.value ∧ t.c = out.flags.c.getD s.c ∧ ∀ f, fileReg t f = fileReg s f := by
  injection h with h
  subst h
  exact ⟨(storageRead_storageWrite _ a a _).trans (if_pos rfl), rfl, fun f => fileReg_storageWrite _ _ _ f⟩

/-- SWAPF as a read-modify-write that lists no status bit. -/
theorem exec_swapf_eq_rmwNext {f : FileAddr} {d : Dest} {s : State} {r : FileReg} (h : fileReg s f = some r) :
    exec (.swapf f d) s = rmwNext d r (aluPlain (swapDigits (readValue r s))) s := exec_swapf_of_some h

/-- Settles O43: the second operation reads the first one's result and C, and is its inverse on them. -/
theorem rotationsAndSwapsUndo : Obligations.RotationsAndSwapsUndo := by
  intro s t u f a hr
  refine ⟨?_, ?_, ?_⟩
  · intro ht hu
    rw [exec_rlf_of_some hr] at ht
    obtain ⟨hvalue, hc, hf⟩ := rmwNext_storage ht
    have hinverse : aluRrf t.c (readValue (.storage a) t) = ⟨storageRead s a, { c := some s.c }⟩ := by
      rw [hvalue, hc]; exact aluRrf_aluRlf _ _
    rw [exec_rrf_of_some ((hf f).trans hr), hinverse] at hu
    obtain ⟨hvalue', hc', -⟩ := rmwNext_storage hu
    exact ⟨hvalue', hc'⟩
  · intro ht hu
    rw [exec_rrf_of_some hr] at ht
    obtain ⟨hvalue, hc, hf⟩ := rmwNext_storage ht
    have hinverse : aluRlf t.c (readValue (.storage a) t) = ⟨storageRead s a, { c := some s.c }⟩ := by
      rw [hvalue, hc]; exact aluRlf_aluRrf _ _
    rw [exec_rlf_of_some ((hf f).trans hr), hinverse] at hu
    obtain ⟨hvalue', hc', -⟩ := rmwNext_storage hu
    exact ⟨hvalue', hc'⟩
  · intro ht hu
    rw [exec_swapf_eq_rmwNext hr] at ht
    obtain ⟨hvalue, -, hf⟩ := rmwNext_storage ht
    rw [exec_swapf_eq_rmwNext ((hf f).trans hr), hvalue] at hu
    exact (rmwNext_storage hu).1.trans (swapDigits_swapDigits _)

/-! ### BCF and BSF (R151, R152) -/

theorem bcf_getLsbD (v : Byte) (b : BitNum) {n : Nat} (hn : n < 8) :
    (v &&& ~~~(bitMask b)).getLsbD n = if n = b.toNat then false else v.getLsbD n := by
  rw [BitVec.getLsbD_and, BitVec.getLsbD_not, bitMask_getLsbD b n hn]
  by_cases h : n = b.toNat <;> simp [h, hn]

theorem bsf_getLsbD (v : Byte) (b : BitNum) {n : Nat} (hn : n < 8) :
    (v ||| bitMask b).getLsbD n = if n = b.toNat then true else v.getLsbD n := by
  rw [BitVec.getLsbD_or, bitMask_getLsbD b n hn]
  by_cases h : n = b.toNat <;> simp [h]

/-- The cycles of an instruction that names f and may write it: its test, or a write of PCL (R229, R230). -/
theorem cycles_of_fileNamed {i : Instr} {s : State} {f : FileAddr} {d : Dest} {r : FileReg} (htransfers : i.transfers = false)
    (hwritten : i.fileWritten = if d = .file then some f else none) (hr : fileReg s f = some r) :
    cycles i s = if testHolds i s = true ∨ (d = .file ∧ r = .pcl) then 2 else 1 := by
  cases d <;> simp [cycles, htransfers, writesPcl, hwritten, hr]

/-- Settles O26: the mask forces one bit and leaves the others, and of the two instructions' cycles only a write of PCL adds one. -/
theorem bitClearBitSet : Obligations.BitClearBitSet := by
  refine ⟨encoded_of_row, encoded_of_row, ?_⟩
  rintro s f b r v hr rfl
  refine ⟨⟨_, fun n hn => bcf_getLsbD (readValue r s) b hn, exec_bcf_of_some hr⟩,
    ⟨_, fun n hn => bsf_getLsbD (readValue r s) b hn, exec_bsf_of_some hr⟩, ?_, ?_⟩
  · simpa [testHolds] using cycles_of_fileNamed (i := .bcf f b) (d := .file) rfl rfl hr
  · simpa [testHolds] using cycles_of_fileNamed (i := .bsf f b) (d := .file) rfl rfl hr

/-! ### DECFSZ and INCFSZ (R127, R129) -/

/-- The form where RegMap defines the register: the result to its destination, and then the skip over all else (U21). -/
theorem finish_fileSkipOp_of_some {inp : StepInput} {op : Byte → Byte} {f : FileAddr} {d : Dest} {s : State} {r : FileReg}
    (h : fileReg s f = some r) :
    finish (fileSkipOp defaultRegMap inp op f d s)
      = .next (skipIf (zeroFlag (op (readValue r s))) s.pc
          (stored d false r (op (readValue r s)) ((afterRead r s).setPc (s.pc + 1)))) := by
  rw [fileSkipOp_of_some h, State.advance, afterRead_pc]
  cases d <;> rfl

theorem exec_decfsz_of_some {f : FileAddr} {d : Dest} {s : State} {r : FileReg} (h : fileReg s f = some r) :
    exec (.decfsz f d) s = .next (skipIf (decide (readValue r s = 0x01)) s.pc
      (stored d false r (readValue r s - 1) ((afterRead r s).setPc (s.pc + 1)))) := by
  have htest : zeroFlag (readValue r s - 1) = decide (readValue r s = 0x01) := zeroFlag_sub_one _
  rw [← htest]
  exact finish_fileSkipOp_of_some h

theorem exec_incfsz_of_some {f : FileAddr} {d : Dest} {s : State} {r : FileReg} (h : fileReg s f = some r) :
    exec (.incfsz f d) s = .next (skipIf (decide (readValue r s = 0xFF)) s.pc
      (stored d false r (readValue r s + 1) ((afterRead r s).setPc (s.pc + 1)))) := by
  have htest : zeroFlag (readValue r s + 1) = decide (readValue r s = 0xFF) := zeroFlag_add_one _
  rw [← htest]
  exact finish_fileSkipOp_of_some h

theorem skipIf_decide (p : Prop) [Decidable p] (pc : ProgAddr) (s : State) :
    skipIf (decide p) pc s = if p then s.setPc (pc + 2) else s := by
  simp [skipIf]

theorem testHolds_decfsz_iff {f : FileAddr} {d : Dest} {s : State} {r : FileReg} (h : fileReg s f = some r) :
    testHolds (.decfsz f d) s = true ↔ readValue r s = 0x01 := by
  rw [testHolds, fileValue_of_some h, zeroFlag_sub_one, decide_eq_true_iff]; rfl

theorem testHolds_incfsz_iff {f : FileAddr} {d : Dest} {s : State} {r : FileReg} (h : fileReg s f = some r) :
    testHolds (.incfsz f d) s = true ↔ readValue r s = 0xFF := by
  rw [testHolds, fileValue_of_some h, zeroFlag_add_one, decide_eq_true_iff]; rfl

/-- Settles O25: Z of the count is the test on the value read, in the next state and in the cycles. -/
theorem countSkipFile : Obligations.CountSkipFile := by
  refine ⟨encoded_of_row, encoded_of_row, ?_⟩
  rintro s f d r v u hr rfl rfl
  have hwritten (i : Instr) (hi : i = .decfsz f d ∨ i = .incfsz f d) : i.fileWritten = if d = .file then some f else none := by
    rcases hi with rfl | rfl <;> cases d <;> rfl
  rw [exec_decfsz_of_some hr, exec_incfsz_of_some hr, skipIf_decide, skipIf_decide,
    cycles_of_fileNamed rfl (hwritten _ (.inl rfl)) hr, cycles_of_fileNamed rfl (hwritten _ (.inr rfl)) hr]
  simp only [testHolds_decfsz_iff hr, testHolds_incfsz_iff hr, and_self]

/-! ### The literal operations (R160 to R173) -/

/-- Settles O28: `aluAdd` and `aluSub` in the sums and comparisons of the rules, of the old W. -/
theorem addSubtractLiteral : Obligations.AddSubtractLiteral := by
  refine ⟨encoded_of_row, encoded_of_row, fun s k => ?_⟩
  have hadd : exec (.addlw k) s = .next (literalOp (aluAdd s.w k) s) := rfl
  have hsub : exec (.sublw k) s = .next (literalOp (aluSub k s.w) s) := rfl
  have hzero : decide (k = s.w) = decide (s.w = k) := by rw [decide_eq_decide]; exact eq_comm
  rw [hadd, hsub, aluAdd_eq, aluSub_eq, hzero]
  exact ⟨rfl, rfl⟩

/-- Settles O29: of the four, IORLW and XORLW state Z on the operands and not on the result. -/
theorem logicMoveLiteral : Obligations.LogicMoveLiteral := by
  refine ⟨encoded_of_row, encoded_of_row, encoded_of_row, encoded_of_row, fun s k => ?_⟩
  have hior : exec (.iorlw k) s = .next (literalOp (aluZ (s.w ||| k)) s) := rfl
  have hxor : exec (.xorlw k) s = .next (literalOp (aluZ (s.w ^^^ k)) s) := rfl
  rw [hior, hxor, aluZ_eq rfl (zeroFlag_or s.w k), aluZ_eq rfl (zeroFlag_xor s.w k)]
  exact ⟨rfl, rfl, rfl, rfl⟩

/-! ### CALL, the returns, SLEEP (R163, R168 to R171) -/

theorem push_of_room {s : State} {v : ProgAddr} (h : s.stk.length < s.params.stackDepth) :
    push s v = .ok { s with stk := v :: s.stk } := if_pos h

theorem push_of_full {s : State} {v : ProgAddr} (h : s.params.stackDepth ≤ s.stk.length) :
    push s v = .error .stackOverflow := if_neg (Nat.not_lt.2 h)

theorem exec_call_of_room {s : State} (k : PageAddr) (h : s.stk.length < s.params.stackDepth) :
    exec (.call k) s = .next { s with stk := (s.pc + 1) :: s.stk, pc := pageTarget s k } := by
  simp only [exec, execCall, push_of_room h, State.setPc]

theorem exec_call_of_full {s : State} (k : PageAddr) (h : s.params.stackDepth ≤ s.stk.length) :
    exec (.call k) s = .refused .stackOverflow := by
  simp only [exec, execCall, push_of_full h]

/-- Settles O31: the push decides between the two outcomes. -/
theorem callSubroutine : Obligations.CallSubroutine :=
  ⟨encoded_of_row, fun s k => ⟨pageTarget s k, pageTarget_toNat s k, exec_call_of_room k, exec_call_of_full k,
    cycles_eq_two_of_transfers rfl⟩⟩

theorem exec_ret_of_cons {s : State} {a : ProgAddr} {rest : List ProgAddr} (h : s.stk = a :: rest) :
    exec .ret s = .next { s with pc := a, stk := rest } := congrArg finish (popPc_of_cons h)

theorem exec_retlw_of_cons {s : State} {a : ProgAddr} {rest : List ProgAddr} (k : Byte) (h : s.stk = a :: rest) :
    exec (.retlw k) s = .next { s with pc := a, stk := rest, w := k } := congrArg finish (popPc_of_cons (s := s.setW k) h)

theorem exec_retfie_of_cons {s : State} {a : ProgAddr} {rest : List ProgAddr} (h : s.stk = a :: rest) :
    exec .retfie s = .next { s with pc := a, stk := rest, gie := true } := by
  simp only [exec, execRetfie, returnFromInterrupt, popPc_of_cons h, finish_ok]

theorem exec_ret_of_nil {s : State} (h : s.stk = []) : exec .ret s = .refused .stackUnderflow :=
  congrArg finish (popPc_of_nil h)

theorem exec_retlw_of_nil {s : State} (k : Byte) (h : s.stk = []) : exec (.retlw k) s = .refused .stackUnderflow :=
  congrArg finish (popPc_of_nil (s := s.setW k) h)

theorem exec_retfie_of_nil {s : State} (h : s.stk = []) : exec .retfie s = .refused .stackUnderflow := by
  simp only [exec, execRetfie, returnFromInterrupt, popPc_of_nil h, finish_error]

/-- Settles O32: the pop decides between the two outcomes of each return. -/
theorem returns : Obligations.Returns :=
  ⟨encoded_of_row, encoded_of_row, encoded_of_row, fun _ k =>
    ⟨fun _ _ h => ⟨exec_ret_of_cons h, exec_retlw_of_cons k h, exec_retfie_of_cons h⟩,
      fun h => ⟨exec_ret_of_nil h, exec_retlw_of_nil k h, exec_retfie_of_nil h⟩,
      cycles_eq_two_of_transfers rfl, cycles_eq_two_of_transfers rfl, cycles_eq_two_of_transfers rfl⟩⟩

/-- Settles O34: the next state is that of the arm, and nothing adds a cycle. -/
theorem sleepInstruction : Obligations.SleepInstruction :=
  ⟨encoded_of_row, fun _ => ⟨rfl, cycles_eq_one rfl rfl rfl⟩⟩

/-- CALL has a next state only where the stack has room. -/
theorem exec_call_eq_next {k : PageAddr} {s t : State} (h : exec (.call k) s = .next t) :
    s.stk.length < s.params.stackDepth ∧ t = { s with stk := (s.pc + 1) :: s.stk, pc := pageTarget s k } := by
  by_cases hroom : s.stk.length < s.params.stackDepth
  · rw [exec_call_of_room k hroom] at h
    injection h with h
    exact ⟨hroom, h.symm⟩
  · rw [exec_call_of_full k (Nat.le_of_not_lt hroom)] at h
    cases h

/-- Settles O44: RETURN pops what CALL pushed. -/
theorem callThenReturn : Obligations.CallThenReturn := by
  intro s t k h
  obtain ⟨-, rfl⟩ := exec_call_eq_next h
  exact exec_ret_of_cons rfl

/-- Settles O45: the stack that entry leaves has the interrupted pc on top. -/
theorem interruptThenReturn : Obligations.InterruptThenReturn := by
  intro s t hgie h
  obtain ⟨-, rfl⟩ := takeInterrupt_eq_ok h
  refine ⟨(exec_retfie_of_cons rfl).trans ?_, exec_ret_of_cons rfl⟩
  rw [← hgie]

/-! ### Special registers as operands (R47 to R49) -/

/-- Settles O12: the register reads 0x00 and takes no write. -/
theorem indfThroughItself : Obligations.IndfThroughItself := by
  intro s hfsr
  have hlow : ((dataAddress s 0x00).extractLsb' 0 7).toNat = 0 := by
    have haddr := dataAddress_indirect_toNat s
    simp [BitVec.extractLsb'_toNat] at haddr ⊢
    omega
  have hr : fileReg s 0x00 = some .indf := by simp only [fileReg, selectReg, hlow, if_true]
  refine ⟨hr, ?_, ?_, ?_, fun b => ?_⟩
  · rw [exec_movf_of_some hr]; rfl
  · rw [exec_movwf_of_some hr]; rfl
  · rw [exec_incf_of_some hr]; rfl
  · rw [exec_bsf_of_some hr]; rfl

/-- A write of PCL puts PCLATH above the byte. -/
theorem pclath_append_toNat (s : State) (v : Byte) : (s.pclath ++ v).toNat = 256 * s.pclath.toNat + v.toNat :=
  toNat_append_eq_add s.pclath v

theorem pclByte_toNat (s : State) : (pclByte s).toNat = (s.pc.toNat + 1) % 256 := by
  simp [pclByte, BitVec.extractLsb'_toNat]

/-- Settles O14: PCL reads as the low byte of pc + 1, and its write puts PCLATH above the byte, after the move of pc. -/
theorem programCounterAsFileRegister : Obligations.ProgramCounterAsFileRegister := by
  intro s f hr
  refine ⟨⟨_, exec_movf_of_some hr, pclByte_toNat s, rfl⟩, ⟨_, exec_movwf_of_some hr, pclath_append_toNat s s.w, rfl⟩,
    ⟨_, exec_addwf_of_some hr, rfl, ?_⟩⟩
  have hsum : (s.w + pclByte s).toNat = ((s.pc.toNat + 1) % 256 + s.w.toNat) % 256 := by
    rw [BitVec.toNat_add, pclByte_toNat, Nat.add_comm]
  exact (pclath_append_toNat s (s.w + pclByte s)).trans (by rw [hsum])

/-- `CLRF STATUS` (R48): 000uu1uu. -/
theorem statusByte_clrf_status (s : State) (pc : ProgAddr) :
    statusByte { writeReg true .status 0x00 (s.setPc pc) with z := true } = (statusByte s &&& 0x1B) ||| 0x04 := by
  obtain ⟨h0, h1, h2, h3, h4, h5, h6, h7⟩ := statusByte_getLsbD s
  apply statusByte_eq_of_bits <;> simp [-BitVec.getLsbD_eq_getElem, writeReg, h0, h1, h3, h4]

/-- Settles O15: the two writes of STATUS, and three instructions that end in one of them. -/
theorem statusAsDestination : Obligations.StatusAsDestination := by
  refine ⟨fun v s => ⟨statusByte_writeStatus_unmasked v s, statusByte_writeStatus_masked v s⟩, fun s f hr => ⟨?_, ?_, ?_⟩⟩
  · exact ⟨_, exec_clrf_of_some hr, statusByte_clrf_status s _⟩
  · exact ⟨_, exec_movwf_of_some hr, statusByte_writeStatus_unmasked s.w (s.setPc (s.pc + 1))⟩
  · obtain ⟨-, -, -, -, -, -, -, hirp⟩ := statusByte_getLsbD s
    exact ⟨_, exec_rlf_of_some hr, hirp, rfl, rfl, rfl, rfl⟩

/-! ### I/O registers (R43, R44, R66) -/

/-- What a write of an I/O register leaves in its latch. -/
theorem read?_latch_writeReg_port (masked : Bool) (a : Nat) (v : Byte) (s : State) :
    Memory.read? (writeReg masked (.port a) v s).latch a = some v := by
  simp [writeReg]

/-- A read of an I/O register ends its condition and no other. -/
theorem mem_conds_afterRead_port (a b : Nat) (s : State) : b ∈ (afterRead (.port a) s).conds ↔ b ∈ s.conds ∧ b ≠ a := by
  simp [afterRead]

theorem readValue_port {a : Nat} {s : State} {level : Byte} (h : Memory.read? s.pins a = some level) :
    readValue (.port a) s = level := by
  simp [readValue, h]

/-- Settles O18: the value is the level of the pins, the write goes to the latch, and the read filters the conditions. -/
theorem inputOutputRegister : Obligations.InputOutputRegister := by
  intro s f a level hr hpins
  have hlevel := readValue_port hpins
  refine ⟨?_, fun b => ?_, ?_⟩
  · refine ⟨_, exec_movf_of_some hr, ?_, ?_, rfl⟩
    · rw [hlevel]; exact read?_latch_writeReg_port true a level _
    · rw [hlevel]; rfl
  · refine ⟨_, _, exec_bsf_of_some hr, read?_latch_writeReg_port false a _ _, fun n hn => ?_⟩
    rw [hlevel]
    exact bsf_getLsbD level b hn
  · have hconds (b : Nat) := mem_conds_afterRead_port a b s
    refine ⟨_, exec_clrf_of_some hr, read?_latch_writeReg_port true a 0x00 _, ?_, fun b hb => ?_⟩
    · intro hmem
      obtain ⟨-, hne⟩ := (hconds a).1 hmem
      exact hne rfl
    · exact (hconds b).trans (and_iff_left hb)

end Sys2Proof.Machine
end

section
/-! PROOFS. The outcome of an instruction (60_exceptions.md R191, R192), and the frames: who may change each component of the state
(10_state.md R21 to R45, 20_memory.md R64, R65), and where pc goes (R24, R25). -/

namespace Sys2Proof.Machine

/-! ### Completion and refusal -/

/-- An instruction that names f has a next state where RegMap defines f. -/
theorem exec_next_of_defined {i : Instr} {s : State} {f : FileAddr} {r : FileReg} (hn : i.fileNamed = some f)
    (hr : fileReg s f = some r) : ∃ t, exec i s = .next t := by
  cases i <;> simp only [Instr.fileNamed, Option.some.injEq, reduceCtorEq] at hn
  case btfsc | btfss => subst hn; exact ⟨_, finish_bitTestOp_of_some hr⟩
  case decfsz | incfsz => subst hn; exact ⟨_, finish_fileSkipOp_of_some hr⟩
  case clrf => subst hn; exact ⟨_, exec_clrf_of_some hr⟩
  all_goals subst hn; exact ⟨_, finish_fileOp_of_some hr⟩

/-- An instruction that names f refuses where RegMap does not define f (D3). -/
theorem exec_refused_of_undefined {i : Instr} {s : State} {f : FileAddr} (hn : i.fileNamed = some f) (hr : fileReg s f = none) :
    exec i s = .refused .unmodelledRegister := by
  cases i <;> simp only [Instr.fileNamed, Option.some.injEq, reduceCtorEq] at hn
  case btfsc | btfss => subst hn; exact congrArg finish (bitTestOp_of_none hr)
  case decfsz | incfsz => subst hn; exact congrArg finish (fileSkipOp_of_none hr)
  case clrf => subst hn; exact congrArg finish (clearOp_of_none hr)
  all_goals subst hn; exact congrArg finish (fileOp_of_none hr)

/-- Only CALL and the returns touch the stack, and they name no file register. -/
theorem no_stack_of_fileNamed {i : Instr} {f : FileAddr} (hn : i.fileNamed = some f) : i.pushes = false ∧ i.pops = false := by
  cases i <;> simp [Instr.fileNamed, Instr.pushes, Instr.pops] at hn ⊢

/-- What can come of an instruction: one of the closed list's three refusals, each with its cause, or a next state where none of the
three causes is there. -/
inductive ExecOutcome (i : Instr) (s : State) : Prop where
  | unmodelled (f : FileAddr) (hn : i.fileNamed = some f) (hr : fileReg s f = none)
      (h : exec i s = .refused .unmodelledRegister) : ExecOutcome i s
  | overflow (hn : i.fileNamed = none) (hpush : i.pushes = true) (hpop : i.pops = false)
      (hfull : s.params.stackDepth ≤ s.stk.length) (h : exec i s = .refused .stackOverflow) : ExecOutcome i s
  | underflow (hn : i.fileNamed = none) (hpush : i.pushes = false) (hpop : i.pops = true) (hempty : s.stk = [])
      (h : exec i s = .refused .stackUnderflow) : ExecOutcome i s
  | next (t : State) (hdefined : ∀ f, i.fileNamed = some f → fileReg s f ≠ none)
      (hroom : i.pushes = true → s.stk.length < s.params.stackDepth) (hentry : i.pops = true → s.stk ≠ [])
      (h : exec i s = .next t) : ExecOutcome i s

theorem execOutcome (i : Instr) (s : State) : ExecOutcome i s := by
  cases hn : i.fileNamed with
  | some f =>
    obtain ⟨hpush, hpop⟩ := no_stack_of_fileNamed hn
    cases hr : fileReg s f with
    | none => exact .unmodelled f hn hr (exec_refused_of_undefined hn hr)
    | some r =>
      obtain ⟨t, ht⟩ := exec_next_of_defined hn hr
      exact .next t (by simp [hn, hr]) (by simp [hpush]) (by simp [hpop]) ht
  | none =>
    cases i <;> simp only [Instr.fileNamed, reduceCtorEq] at hn
    case call k =>
      by_cases hroom : s.stk.length < s.params.stackDepth
      · exact .next _ (by simp [Instr.fileNamed]) (fun _ => hroom) (by simp [Instr.pops]) (exec_call_of_room k hroom)
      · exact .overflow rfl rfl rfl (Nat.le_of_not_lt hroom) (exec_call_of_full k (Nat.le_of_not_lt hroom))
    case ret =>
      cases hstk : s.stk with
      | nil => exact .underflow rfl rfl rfl hstk (exec_ret_of_nil hstk)
      | cons a rest => exact .next _ (by simp [Instr.fileNamed]) (by simp [Instr.pushes]) (by simp [hstk]) (exec_ret_of_cons hstk)
    case retlw k =>
      cases hstk : s.stk with
      | nil => exact .underflow rfl rfl rfl hstk (exec_retlw_of_nil k hstk)
      | cons a rest =>
        exact .next _ (by simp [Instr.fileNamed]) (by simp [Instr.pushes]) (by simp [hstk]) (exec_retlw_of_cons k hstk)
    case retfie =>
      cases hstk : s.stk with
      | nil => exact .underflow rfl rfl rfl hstk (exec_retfie_of_nil hstk)
      | cons a rest => exact .next _ (by simp [Instr.fileNamed]) (by simp [Instr.pushes]) (by simp [hstk]) (exec_retfie_of_cons hstk)
    all_goals exact .next _ (by simp [Instr.fileNamed]) (by simp [Instr.pushes]) (by simp [Instr.pops]) rfl

/-- Settles O35: the hypotheses exclude the causes of the three refusals. -/
theorem everyInstructionCompletes : Obligations.EveryInstructionCompletes := by
  intro i s hdefined hroom hentry
  cases execOutcome i s with
  | unmodelled f hn hr => exact absurd hr (hdefined f hn)
  | overflow _ hpush _ hfull => exact absurd (hroom hpush) (Nat.not_lt.2 hfull)
  | underflow _ _ hpop hempty => exact absurd hempty (hentry hpop)
  | next t _ _ _ h => exact ⟨t, h⟩

/-- Settles O36: each outcome of an instruction is one of the list's refusals with its cause, or a next state without any cause. -/
theorem refusalsAreTheClosedList : Obligations.RefusalsAreTheClosedList := by
  intro i s reason
  cases execOutcome i s with
  | unmodelled f hn hr h =>
    obtain ⟨hpush, hpop⟩ := no_stack_of_fileNamed hn
    simp [h, hn, hr, hpush, hpop, eq_comm]
  | overflow hn hpush hpop hfull h => simp [h, hn, hpush, hpop, hfull, eq_comm]
  | underflow hn hpush hpop hempty h => simp [h, hn, hpush, hpop, hempty, eq_comm]
  | next t hdefined hroom hentry h =>
    rw [h]
    refine iff_of_false (by simp) ?_
    rintro (⟨-, f, hn, hr⟩ | ⟨-, hpush, hfull⟩ | ⟨-, hpop, hempty⟩)
    · exact hdefined f hn hr
    · exact absurd (hroom hpush) (Nat.not_lt.2 hfull)
    · exact hentry hpop hempty

/-! ### What an instruction keeps -/

/-- A skip, or none, as an assignment of pc. -/
theorem skipIf_eq_setPc (cond : Bool) (pc : ProgAddr) (s : State) :
    skipIf cond pc s = s.setPc (if cond then pc + 2 else s.pc) := by cases cond <;> rfl

theorem regWritten_of_dest {i : Instr} {s : State} {f : FileAddr} {r : FileReg} {d : Dest}
    (hw : i.fileWritten = if d = .file then some f else none) (hr : fileReg s f = some r) :
    regWritten i s = if d = .file then some r else none := by cases d <;> simp [regWritten, hw, hr]

/-- The instruction reads no register exactly when it names none, or refuses. -/
theorem fileNamed_eq_none_of_regRead {i : Instr} {s t : State} (h : exec i s = .next t) (hr : regRead i s = none) :
    i.fileNamed = none := by
  cases hn : i.fileNamed with
  | none => rfl
  | some f =>
    have hf : fileReg s f = none := by simpa [regRead, hn] using hr
    rw [exec_refused_of_undefined hn hf] at h
    cases h

/-- What an instruction that reads a register keeps of the state after the read: everything that assignments of W, pc, C, DC and Z
keep, and the write of that register if it writes it. -/
theorem exec_read_preserves (P : State → Prop) {i : Instr} {s t : State} {r : FileReg} (h : exec i s = .next t)
    (hr : regRead i s = some r) (hread : P (afterRead r s))
    (hset : ∀ u v : State, P u → P { u with w := v.w, pc := v.pc, c := v.c, dc := v.dc, z := v.z })
    (hwrite : regWritten i s = some r → ∀ masked v u, P u → P (writeReg masked r v u)) : P t := by
  have hpc (u : State) (pc : ProgAddr) (hu : P u) : P (u.setPc pc) := hset u (u.setPc pc) hu
  have hbase (fw : FlagWrite) : P (((afterRead r s).setFlags fw).advance) :=
    hset (afterRead r s) (((afterRead r s).setFlags fw).advance) hread
  have hstored {f : FileAddr} {d : Dest} (hw : i.fileWritten = if d = .file then some f else none) (hf : fileReg s f = some r)
      (masked : Bool) (v : Byte) (u : State) (hu : P u) : P (stored d masked r v u) := by
    cases d with
    | w => exact hset u (u.setW v) hu
    | file => exact hwrite (by rw [regWritten_of_dest hw hf]; rfl) masked v u hu
  cases exec_nextShape h with
  | file f d r' v fw hn hw _ hf ht =>
    obtain rfl : r' = r := by simpa [regRead, hn, hf] using hr
    subst ht
    exact hstored hw hf _ _ _ (hbase fw)
  | fileSkip f d r' v hn hw _ hf ht =>
    obtain rfl : r' = r := by simpa [regRead, hn, hf] using hr
    rw [ht, skipIf_eq_setPc]
    exact hpc _ _ (hstored hw hf _ _ _ (hbase {}))
  | bitTest f r' hn _ _ hf ht =>
    obtain rfl : r' = r := by simpa [regRead, hn, hf] using hr
    rw [ht, skipIf_eq_setPc]
    exact hpc _ _ (hbase {})
  | noFile hn => simp [regRead, hn] at hr

/-- The same of a function of the state: it is after the instruction what it is after the read. -/
theorem exec_read_frame {α : Type} (g : State → α) {i : Instr} {s t : State} {r : FileReg} (h : exec i s = .next t)
    (hr : regRead i s = some r)
    (hset : ∀ u v : State, g { u with w := v.w, pc := v.pc, c := v.c, dc := v.dc, z := v.z } = g u)
    (hwrite : regWritten i s = some r → ∀ masked v u, g (writeReg masked r v u) = g u) : g t = g (afterRead r s) :=
  exec_read_preserves (fun u => g u = g (afterRead r s)) h hr rfl (fun u v hu => (hset u v).trans hu)
    (fun hw masked v u hu => (hwrite hw masked v u).trans hu)

/-- A function of the components that no instruction assigns but through a file register: it changes only by the read and the write
of the file register. -/
theorem exec_frame {α : Type} (g : State → α) {i : Instr} {s t : State} (h : exec i s = .next t)
    (hset : ∀ u v : State, g { u with
      w := v.w, pc := v.pc, stk := v.stk, c := v.c, dc := v.dc, z := v.z, nTO := v.nTO, nPD := v.nPD, gie := v.gie
      wdt := v.wdt, wdtps := v.wdtps, sleeping := v.sleeping } = g u)
    (hread : ∀ r, regRead i s = some r → g (afterRead r s) = g s)
    (hwrite : ∀ r, regWritten i s = some r → ∀ masked v u, g (writeReg masked r v u) = g u) : g t = g s := by
  cases hr : regRead i s with
  | none =>
    have hkeeps := exec_noFile_keeps h (fileNamed_eq_none_of_regRead h hr)
    exact (congrArg g hkeeps).trans (hset s t)
  | some r =>
    have hset' (u v : State) : g { u with w := v.w, pc := v.pc, c := v.c, dc := v.dc, z := v.z } = g u :=
      hset u { u with w := v.w, pc := v.pc, c := v.c, dc := v.dc, z := v.z }
    exact (exec_read_frame g h hr hset' (hwrite r)).trans (hread r hr)

/-- What the instructions that name no file register change of the components that they may assign. -/
theorem exec_noFile_effects {i : Instr} {s t : State} (h : exec i s = .next t) (hn : i.fileNamed = none) :
    (i.writesW = false → t.w = s.w) ∧ (i.listsCarry = false → t.c = s.c) ∧ (i.listsDigitCarry = false → t.dc = s.dc)
      ∧ (i.listsZero = false → t.z = s.z) ∧ (i ≠ .retfie → t.gie = s.gie)
      ∧ (i.pushes = false → i.pops = false → t.stk = s.stk) ∧ (i ≠ .sleep → t.sleeping = s.sleeping)
      ∧ (i ≠ .clrwdt → i ≠ .sleep → t.wdt = s.wdt ∧ t.wdtps = s.wdtps ∧ t.nTO = s.nTO ∧ t.nPD = s.nPD)
      ∧ (i.transfers = false → t.pc = s.pc + 1) := by
  cases i <;> simp only [Instr.fileNamed, reduceCtorEq] at hn
  case call => obtain ⟨-, rfl⟩ := exec_call_eq_next h; simp [Instr.pushes, Instr.transfers]
  case ret =>
    obtain ⟨a, rest, hs, rfl⟩ := popPc_eq_ok (finish_eq_next h); simp [Instr.pops, Instr.transfers]
  case retlw =>
    obtain ⟨a, rest, hs, rfl⟩ := popPc_eq_ok (finish_eq_next h); simp [Instr.pops, Instr.transfers, Instr.writesW]
  case retfie =>
    obtain ⟨a, rest, hs, rfl⟩ := returnFromInterrupt_eq_ok (finish_eq_next h); simp [Instr.pops, Instr.transfers]
  all_goals
    injection h with h
    subst h
    simp [Instr.writesW, Instr.listsCarry, Instr.listsDigitCarry, Instr.listsZero, Instr.transfers, literalOp, aluAdd, aluSub, aluZ,
      aluPlain]

/-- A component that no file register holds and no read changes: an instruction that names a file register keeps it. -/
theorem exec_read_keeps {α : Type} (g : State → α) {i : Instr} {s t : State} {r : FileReg} (h : exec i s = .next t)
    (hr : regRead i s = some r)
    (hset : ∀ u v : State, g { u with w := v.w, pc := v.pc, c := v.c, dc := v.dc, z := v.z } = g u)
    (hread : g (afterRead r s) = g s) (hwrite : ∀ masked v u, g (writeReg masked r v u) = g u) : g t = g s :=
  (exec_read_frame g h hr hset fun _ => hwrite).trans hread

/-! ### Storage, latches and program memory (R60, R64, R65) -/

theorem storageRead_writeReg_of_ne {masked : Bool} {r : FileReg} {v : Byte} {s : State} {a : Nat} (hr : r ≠ .storage a) :
    storageRead (writeReg masked r v s) a = storageRead s a := by
  cases r with
  | storage b =>
    have hab : a ≠ b := fun hab => hr (by rw [hab])
    exact (storageRead_storageWrite s b a v).trans (if_neg hab)
  | _ => rfl

theorem read?_latch_writeReg_of_ne {masked : Bool} {r : FileReg} {v : Byte} {s : State} {a : Nat} (hr : r ≠ .port a) :
    Memory.read? (writeReg masked r v s).latch a = Memory.read? s.latch a := by
  cases r with
  | port b =>
    have hab : a ≠ b := fun hab => hr (by rw [hab])
    simp [writeReg, hab]
  | _ => rfl

theorem exec_prog {i : Instr} {s t : State} (h : exec i s = .next t) : t.prog = s.prog :=
  exec_frame (·.prog) h (fun _ _ => rfl) (fun r _ => afterRead_prog r s) (fun r _ m v u => writeReg_prog m r v u)

theorem exec_params {i : Instr} {s t : State} (h : exec i s = .next t) : t.params = s.params :=
  exec_frame (·.params) h (fun _ _ => rfl) (fun r _ => afterRead_params r s) (fun r _ m v u => writeReg_params m r v u)

theorem exec_pins {i : Instr} {s t : State} (h : exec i s = .next t) : t.pins = s.pins :=
  exec_frame (·.pins) h (fun _ _ => rfl) (fun r _ => afterRead_pins r s) (fun r _ m v u => writeReg_pins m r v u)

theorem exec_inputs {i : Instr} {s t : State} (h : exec i s = .next t) : t.inputs = s.inputs :=
  exec_frame (·.inputs) h (fun _ _ => rfl) (fun r _ => afterRead_inputs r s) (fun r _ m v u => writeReg_inputs m r v u)

theorem exec_epoch {i : Instr} {s t : State} (h : exec i s = .next t) : t.epoch = s.epoch :=
  exec_frame (·.epoch) h (fun _ _ => rfl) (fun r _ => afterRead_epoch r s) (fun r _ m v u => writeReg_epoch m r v u)

/-- Settles O39: each component is a function of the state that only a write of its own register changes. -/
theorem frameOfMemory : Obligations.FrameOfMemory := by
  intro i s t h
  refine ⟨fun a ha => ?_, fun a ha => ?_, fun a => ?_⟩
  · refine exec_frame (storageRead · a) h (fun _ _ => rfl) (fun r _ => ?_) fun r hr m v u => ?_
    · simp only [storageRead, afterRead_ram, afterRead_epoch]
    · exact storageRead_writeReg_of_ne fun hra => ha (hra ▸ hr)
  · refine exec_frame (fun u => Memory.read? u.latch a) h (fun _ _ => rfl) (fun r _ => ?_) fun r hr m v u => ?_
    · simp only [afterRead_latch]
    · exact read?_latch_writeReg_of_ne fun hra => ha (hra ▸ hr)
  · rw [progRead, exec_prog h, progRead]

/-! ### The special registers, the stack and the model's own fields (R38 to R45) -/

/-- A read that is not of TMR0 or an I/O register draws nothing; one that is not of an I/O register ends no condition. -/
theorem afterRead_draws_of_ne {r : FileReg} {s : State} (htmr0 : r ≠ .tmr0) (hport : ∀ a, r ≠ .port a) :
    (afterRead r s).draws = s.draws := by
  cases r with
  | tmr0 => exact absurd rfl htmr0
  | port a => exact absurd rfl (hport a)
  | _ => rfl

theorem afterRead_conds_of_ne {r : FileReg} {s : State} (hport : ∀ a, r ≠ .port a) : (afterRead r s).conds = s.conds := by
  cases r with
  | port a => exact absurd rfl (hport a)
  | _ => rfl

/-- A component that one register holds, and no read changes, stays where that register is not written. -/
theorem exec_frame_of_ne {α : Type} (g : State → α) (r₀ : FileReg) {i : Instr} {s t : State} (h : exec i s = .next t)
    (hne : regWritten i s ≠ some r₀)
    (hset : ∀ u v : State, g { u with
      w := v.w, pc := v.pc, stk := v.stk, c := v.c, dc := v.dc, z := v.z, nTO := v.nTO, nPD := v.nPD, gie := v.gie
      wdt := v.wdt, wdtps := v.wdtps, sleeping := v.sleeping } = g u)
    (hread : ∀ r, g (afterRead r s) = g s)
    (hwrite : ∀ r masked v u, r ≠ r₀ → g (writeReg masked r v u) = g u) : g t = g s :=
  exec_frame g h hset (fun r _ => hread r) fun r hr m v u => hwrite r m v u fun hrr => hne (hrr ▸ hr)

/-- What the instructions do to the components that file registers do not hold, but some instruction assigns. -/
theorem exec_control_frame {i : Instr} {s t : State} (h : exec i s = .next t) :
    (i.pushes = false → i.pops = false → t.stk = s.stk) ∧ (i ≠ .sleep → t.sleeping = s.sleeping)
      ∧ (i ≠ .clrwdt → i ≠ .sleep → t.wdt = s.wdt ∧ t.wdtps = s.wdtps ∧ t.nTO = s.nTO ∧ t.nPD = s.nPD)
      ∧ (regWritten i s ≠ some .intcon → i ≠ .retfie → t.gie = s.gie) := by
  cases hr : regRead i s with
  | none =>
    obtain ⟨-, -, -, -, hgie, hstk, hsleep, hwdt, -⟩ := exec_noFile_effects h (fileNamed_eq_none_of_regRead h hr)
    exact ⟨hstk, hsleep, hwdt, fun _ => hgie⟩
  | some r =>
    have hkeep {α : Type} (g : State → α)
        (hset : ∀ u v : State, g { u with w := v.w, pc := v.pc, c := v.c, dc := v.dc, z := v.z } = g u)
        (hread : g (afterRead r s) = g s) (hwrite : ∀ m v u, g (writeReg m r v u) = g u) : g t = g s :=
      exec_read_keeps g h hr hset hread hwrite
    refine ⟨fun _ _ => ?_, fun _ => ?_, fun _ _ => ⟨?_, ?_, ?_, ?_⟩, fun hintcon _ => ?_⟩
    · exact hkeep (·.stk) (fun _ _ => rfl) (afterRead_stk r s) (fun m v u => writeReg_stk m r v u)
    · exact hkeep (·.sleeping) (fun _ _ => rfl) (afterRead_sleeping r s) (fun m v u => writeReg_sleeping m r v u)
    · exact hkeep (·.wdt) (fun _ _ => rfl) (afterRead_wdt r s) (fun m v u => writeReg_wdt m r v u)
    · exact hkeep (·.wdtps) (fun _ _ => rfl) (afterRead_wdtps r s) (fun m v u => writeReg_wdtps m r v u)
    · exact hkeep (·.nTO) (fun _ _ => rfl) (afterRead_nTO r s) (fun m v u => writeReg_nTO m r v u)
    · exact hkeep (·.nPD) (fun _ _ => rfl) (afterRead_nPD r s) (fun m v u => writeReg_nPD m r v u)
    · refine (exec_read_frame (·.gie) h hr (fun _ _ => rfl) fun hw m v u => ?_).trans (afterRead_gie r s)
      obtain ⟨-, -, -, -, -, hother, -⟩ := writeReg_other m r v u
      exact (hother fun hri => hintcon (hri ▸ hw)).2

/-- Settles O38: each clause is a frame of one component. -/
theorem frameOfSpecialRegisters : Obligations.FrameOfSpecialRegisters := by
  intro i s t h
  obtain ⟨hstk, hsleep, hwdt, hgie⟩ := exec_control_frame h
  refine ⟨fun hne => ?_, fun hne => ?_, fun hne => ?_, fun hne => ⟨?_, hgie hne⟩, fun hne => ⟨?_, ?_⟩, hstk, fun h1 h2 => ?_, hsleep,
    ⟨exec_params h, exec_pins h, exec_inputs h, exec_epoch h⟩, fun htmr0 hport => ?_, fun hport => ?_⟩
  · exact exec_frame_of_ne (·.pclath) _ h hne (fun _ _ => rfl) (afterRead_pclath · s) fun r m v u hr => by
      obtain ⟨-, -, hother, -⟩ := writeReg_other m r v u
      exact hother hr
  · exact exec_frame_of_ne (·.fsr) _ h hne (fun _ _ => rfl) (afterRead_fsr · s) fun r m v u hr => by
      obtain ⟨-, -, -, hother, -⟩ := writeReg_other m r v u
      exact hother hr
  · exact exec_frame_of_ne (·.optionReg) _ h hne (fun _ _ => rfl) (afterRead_optionReg · s) fun r m v u hr => by
      obtain ⟨-, -, -, -, hother, -⟩ := writeReg_other m r v u
      exact hother hr
  · exact exec_frame_of_ne (·.intcon) _ h hne (fun _ _ => rfl) (afterRead_intcon · s) fun r m v u hr => by
      obtain ⟨-, -, -, -, -, hother, -⟩ := writeReg_other m r v u
      exact (hother hr).1
  · exact exec_frame_of_ne (·.tmr0) _ h hne (fun _ _ => rfl) (afterRead_tmr0 · s) fun r m v u hr => by
      obtain ⟨-, -, -, -, -, -, hother, -⟩ := writeReg_other m r v u
      exact (hother hr).1
  · exact exec_frame_of_ne (·.t0ps) _ h hne (fun _ _ => rfl) (afterRead_t0ps · s) fun r m v u hr => by
      obtain ⟨-, -, -, -, -, -, hother, -⟩ := writeReg_other m r v u
      exact (hother hr).2
  · obtain ⟨hw, hps, -⟩ := hwdt h1 h2
    exact ⟨hw, hps⟩
  · exact exec_frame (·.draws) h (fun _ _ => rfl)
      (fun r hr => afterRead_draws_of_ne (fun hrr => htmr0 (hrr ▸ hr)) fun a hra => hport a (hra ▸ hr))
      (fun r _ m v u => writeReg_draws m r v u)
  · exact exec_frame (·.conds) h (fun _ _ => rfl) (fun r hr => afterRead_conds_of_ne fun a hra => hport a (hra ▸ hr))
      (fun r _ m v u => writeReg_conds m r v u)

/-! ### W and the status bits (R21, R30, R36) -/

/-- Storing a result leaves C, DC and Z alone but where it is an unmasked write of STATUS. -/
theorem stored_flags {d : Dest} {masked : Bool} {r : FileReg} {v : Byte} {s : State}
    (h : masked = true ∨ d = .w ∨ r ≠ .status) :
    (stored d masked r v s).c = s.c ∧ (stored d masked r v s).dc = s.dc ∧ (stored d masked r v s).z = s.z := by
  cases d with
  | w => exact ⟨rfl, rfl, rfl⟩
  | file =>
    rcases h with rfl | h | h
    · exact writeReg_masked r v s
    · cases h
    · obtain ⟨-, hother, -⟩ := writeReg_other masked r v s
      obtain ⟨hc, hdc, hz, -⟩ := hother h
      exact ⟨hc, hdc, hz⟩

theorem stored_file_w {d : Dest} {masked : Bool} {r : FileReg} {v : Byte} {s : State} (h : d ≠ .w) :
    (stored d masked r v s).w = s.w := by
  cases d with
  | w => exact absurd rfl h
  | file => exact writeReg_w masked r v s

/-- Where STATUS is not written, the destination is W or another register. -/
theorem dest_of_regWritten_ne {i : Instr} {s : State} {f : FileAddr} {r r₀ : FileReg} {d : Dest}
    (hw : i.fileWritten = if d = .file then some f else none) (hr : fileReg s f = some r) (hne : regWritten i s ≠ some r₀) :
    d = .w ∨ r ≠ r₀ := by
  rw [regWritten_of_dest hw hr] at hne
  cases d with
  | w => exact .inl rfl
  | file => exact .inr fun hrr => hne (by rw [if_pos rfl, hrr])

theorem exec_w_frame {i : Instr} {s t : State} (h : exec i s = .next t) (hW : i.writesW = false) : t.w = s.w := by
  cases exec_nextShape h with
  | file f d r v fw _ _ hWd _ ht =>
    rw [ht, stored_file_w (by simpa [hW] using hWd)]
    exact afterRead_w r s
  | fileSkip f d r v _ _ hWd _ ht =>
    rw [ht, skipIf_eq_setPc, State.setPc_w, stored_file_w (by simpa [hW] using hWd)]
    exact afterRead_w r s
  | bitTest f r _ _ _ _ ht => rw [ht, skipIf_eq_setPc]; exact afterRead_w r s
  | noFile hn =>
    obtain ⟨hframe, -⟩ := exec_noFile_effects h hn
    exact hframe hW

/-- C, DC and Z where the instruction lists some of them, or does not write STATUS: each that it does not list stays. -/
theorem exec_flags_frame {i : Instr} {s t : State} (h : exec i s = .next t)
    (hstatus : i.listsCarry = true ∨ i.listsZero = true ∨ regWritten i s ≠ some .status) :
    (i.listsCarry = false → t.c = s.c) ∧ (i.listsDigitCarry = false → t.dc = s.dc) ∧ (i.listsZero = false → t.z = s.z) := by
  cases exec_nextShape h with
  | file f d r v fw hn hw _ hr ht hc hdc hz =>
    have hplain : fw.listsAny = true ∨ d = .w ∨ r ≠ .status := by
      rcases hstatus with hlists | hlists | hne
      · exact .inl (by simp [FlagWrite.listsAny, ← hc, hlists])
      · exact .inl (by simp [FlagWrite.listsAny, ← hz, hlists])
      · exact .inr (dest_of_regWritten_ne hw hr hne)
    obtain ⟨hc', hdc', hz'⟩ := stored_flags (v := v) (s := ((afterRead r s).setFlags fw).advance) hplain
    rw [ht, hc', hdc', hz', hc, hdc, hz]
    simp +contextual
  | fileSkip f d r v hn hw _ hr ht hc hdc hz =>
    have hplain : false = true ∨ d = .w ∨ r ≠ .status := by
      rcases hstatus with hlists | hlists | hne
      · simp [hc] at hlists
      · simp [hz] at hlists
      · exact .inr (dest_of_regWritten_ne hw hr hne)
    obtain ⟨hc', hdc', hz'⟩ := stored_flags (v := v) (s := (afterRead r s).advance) hplain
    rw [ht, skipIf_eq_setPc]
    simp [hc', hdc', hz']
  | bitTest f r _ _ _ _ ht =>
    rw [ht, skipIf_eq_setPc]
    simp
  | noFile hn =>
    obtain ⟨-, hc, hdc, hz, -⟩ := exec_noFile_effects h hn
    exact ⟨hc, hdc, hz⟩

/-- Settles O37: W and the listed bits by the shapes of a next state, the other bits as frames of one component. -/
theorem frameOfWAndStatus : Obligations.FrameOfWAndStatus := by
  intro i s t h
  obtain ⟨-, -, hwdt, -⟩ := exec_control_frame h
  refine ⟨exec_w_frame h, fun hc hne => ?_, fun hdc hne => ?_, fun hz hne => ?_, fun hlists => ?_, fun hne => ⟨?_, ?_⟩,
    fun h1 h2 => ?_⟩
  · obtain ⟨hframe, -, -⟩ := exec_flags_frame h (.inr (.inr hne))
    exact hframe hc
  · obtain ⟨-, hframe, -⟩ := exec_flags_frame h (.inr (.inr hne))
    exact hframe hdc
  · obtain ⟨-, -, hframe⟩ := exec_flags_frame h (.inr (.inr hne))
    exact hframe hz
  · exact exec_flags_frame h (hlists.imp_right .inl)
  · exact exec_frame_of_ne (·.irp) _ h hne (fun _ _ => rfl) (afterRead_irp · s) fun r m v u hr => by
      obtain ⟨-, hother, -⟩ := writeReg_other m r v u
      obtain ⟨-, -, -, hirp, -⟩ := hother hr
      exact hirp
  · exact exec_frame_of_ne (·.rp) _ h hne (fun _ _ => rfl) (afterRead_rp · s) fun r m v u hr => by
      obtain ⟨-, hother, -⟩ := writeReg_other m r v u
      obtain ⟨-, -, -, -, hrp⟩ := hother hr
      exact hrp
  · obtain ⟨-, -, hnTO, hnPD⟩ := hwdt h1 h2
    exact ⟨hnTO, hnPD⟩

/-! ### pc and cycles (R24, R25, R229) -/

theorem stored_pc {d : Dest} {masked : Bool} {r : FileReg} {v : Byte} {s : State} (h : d = .w ∨ r ≠ .pcl) :
    (stored d masked r v s).pc = s.pc := by
  cases d with
  | w => rfl
  | file =>
    obtain ⟨hother, -⟩ := writeReg_other masked r v s
    exact hother (h.resolve_left (by simp))

/-- Settles O40: a skip instruction that skips assigns pc last; else pc + 1 stands unless the result goes to PCL. -/
theorem nextAddress : Obligations.NextAddress := by
  intro i s t h
  cases exec_nextShape h with
  | file f d r v fw hn hw _ hr ht _ _ _ hx hs hth =>
    refine ⟨by simp [hs], fun _ hne _ => ?_, by simp [hth]⟩
    rw [ht, stored_pc (dest_of_regWritten_ne hw hr hne)]
    simp
  | fileSkip f d r v hn hw _ hr ht _ _ _ hx hs =>
    refine ⟨fun _ htest => by rw [ht, htest]; rfl, fun _ hne htest => ?_, fun _ => hs⟩
    rw [ht, htest, skipIf_eq_setPc, State.setPc_pc, if_neg (by simp), stored_pc (dest_of_regWritten_ne hw hr hne)]
    simp
  | bitTest f r hn hw _ hr ht _ _ _ hx hs =>
    refine ⟨fun _ htest => by rw [ht, htest]; rfl, fun _ _ htest => ?_, fun _ => hs⟩
    rw [ht, htest, skipIf_eq_setPc, State.setPc_pc, if_neg (by simp)]
    simp
  | noFile hn hw hs hth =>
    obtain ⟨-, -, -, -, -, -, -, -, hpc⟩ := exec_noFile_effects h hn
    exact ⟨by simp [hs], fun hx _ _ => hpc hx, by simp [hth]⟩

theorem cycles_eq_two_iff (i : Instr) (s : State) :
    cycles i s = 2 ↔ i.transfers = true ∨ testHolds i s = true ∨ regWritten i s = some .pcl := by
  rw [cycles, writesPcl, ← regWritten]
  cases i.transfers <;> cases testHolds i s <;> simp

theorem cycles_eq_one_iff (i : Instr) (s : State) : cycles i s = 1 ↔ cycles i s ≠ 2 := by
  unfold cycles
  split <;> simp

/-- Settles O41: where none of the three conditions holds, pc moves on by one (O40). -/
theorem twoCyclesWhenPcChanges : Obligations.TwoCyclesWhenPcChanges := by
  intro i s t h
  obtain ⟨-, hpc, -⟩ := nextAddress i s t h
  refine ⟨fun hchange => ?_, fun htest hx hne => ?_, rfl⟩
  · rw [cycles_eq_two_iff]
    by_contra hnone
    simp only [not_or, Bool.not_eq_true] at hnone
    obtain ⟨hx, htest, hne⟩ := hnone
    simp [hpc hx hne htest, hx, htest, hne] at hchange
  · rw [cycles_eq_one_iff, ne_eq, cycles_eq_two_iff]
    simp [htest, hx, hne]

/-! ### TMR0 (R41, R66, R209) -/

/-- An instruction that writes TMR0 leaves the prescaler as the write does, whatever it writes. -/
theorem exec_t0ps_of_written {i : Instr} {s t : State} (h : exec i s = .next t) (hw : regWritten i s = some .tmr0) :
    t.t0ps = if s.optionReg.getLsbD 3 then s.t0ps else 0 := by
  cases exec_nextShape h with
  | file f d r v fw _ hd _ hr ht =>
    rw [regWritten_of_dest hd hr] at hw
    cases d with
    | w => cases hw
    | file => cases hw; rw [ht]; rfl
  | fileSkip f d r v _ hd _ hr ht =>
    rw [regWritten_of_dest hd hr] at hw
    cases d with
    | w => cases hw
    | file => cases hw; rw [ht, skipIf_eq_setPc]; rfl
  | bitTest f r _ hnone => simp [regWritten, hnone] at hw
  | noFile _ hnone => simp [regWritten, hnone] at hw

/-- Settles O17: a write by the shapes of a next state, a read alone as a frame, the draw by the state after the read. -/
theorem timer0Access : Obligations.Timer0Access := by
  intro i s t h
  refine ⟨exec_t0ps_of_written h, fun _ hw => ?_, fun hr => ?_, fun f hi hr => ?_⟩
  · refine exec_frame_of_ne (·.t0ps) .tmr0 h (by simp [hw]) (fun _ _ => rfl) (afterRead_t0ps · s) fun r m v u hne => ?_
    obtain ⟨-, -, -, -, -, -, hother, -⟩ := writeReg_other m r v u
    exact (hother hne).2
  · exact exec_read_frame (·.draws) h hr (fun _ _ => rfl) fun _ m v u => writeReg_draws m .tmr0 v u
  · subst hi
    rw [exec_movf_of_some hr] at h
    injection h with h
    subst h
    rfl

end Sys2Proof.Machine
end

section
/-! PROOFS. RegMap as an argument (20_memory.md R63, 92_eei_decisions.md D3): what an instruction does with it, and that the defaults
give the machine itself. -/

namespace Sys2Proof.Machine

/-! ### One read, then at most one write (R65) -/

/-- What R65 says of an instruction that names f, under a RegMap: it refuses where the read of f does; writing no file register, it
then changes W, the status bits and pc alone; writing f, it ends with the one write of f, but for a skip and CLRF's Z. -/
def ReadsThenWrites (m : RegMap) (inp : StepInput) (i : Instr) (s : State) (f : FileAddr) : Prop :=
  (∀ reason, m.read f inp s = .error reason → execOn m inp i s = .refused reason)
    ∧ ∀ (v : Byte) (t : State), m.read f inp s = .ok (v, t) →
        (i.fileWritten = none → ∃ u, execOn m inp i s = .next u
            ∧ u = { t with w := u.w, c := u.c, dc := u.dc, z := u.z, pc := u.pc })
          ∧ (i.fileWritten = some f → ∃ (result : Byte) (u : State), u = { t with c := u.c, dc := u.dc, z := u.z, pc := t.pc + 1 }
              ∧ (i = .clrf f → result = 0x00 ∧ u = { t with pc := t.pc + 1 })
              ∧ (∀ reason, m.write (i.listsCarry || i.listsZero) f result u = .error reason → execOn m inp i s = .refused reason)
              ∧ ∀ x, m.write (i.listsCarry || i.listsZero) f result u = .ok x →
                  execOn m inp i s = .next (if i.skips && zeroFlag result then { x with pc := s.pc + 2 }
                    else if i = .clrf f then { x with z := true } else x))

section Forms

variable {m : RegMap} {inp : StepInput} {i : Instr} {s : State} {f : FileAddr}

theorem fileOp_readsThenWrites {op : Byte → Bool → Byte → AluOut} {d : Dest}
    (hexec : execOn m inp i s = finish (fileOp m inp op f d s)) (hw : i.fileWritten = if d = .file then some f else none)
    (hskips : i.skips = false) (hclrf : i ≠ .clrf f)
    (hlists : ∀ w c v, (op w c v).flags.listsAny = (i.listsCarry || i.listsZero)) : ReadsThenWrites m inp i s f := by
  rw [ReadsThenWrites, hexec, hskips, hw]
  refine ⟨fun reason h => by rw [fileOp_of_error h, finish_error], fun v t h => ?_⟩
  rw [fileOp_of_ok h, hlists]
  cases d with
  | w => exact ⟨fun _ => ⟨_, rfl, rfl⟩, fun hfile => by cases hfile⟩
  | file =>
    refine ⟨fun hnone => (by cases hnone), fun _ => ⟨(op t.w t.c v).value, (t.setFlags (op t.w t.c v).flags).advance, rfl,
      fun hi => absurd hi hclrf, fun reason hwrite => ?_, fun x hwrite => ?_⟩⟩
    · rw [writeDest_file, hwrite, finish_error]
    · rw [writeDest_file, hwrite, finish_ok, if_neg (by simp), if_neg hclrf]

theorem clrf_readsThenWrites : ReadsThenWrites m inp (.clrf f) s f := by
  have hexec : execOn m inp (.clrf f) s = finish (clearOp m inp f s) := rfl
  rw [ReadsThenWrites, hexec]
  refine ⟨fun reason h => by simp [clearOp, h], fun v t h => ⟨fun hnone => (by cases hnone), fun _ =>
    ⟨0x00, t.advance, rfl, fun _ => ⟨rfl, rfl⟩, fun reason hwrite => ?_, fun x hwrite => ?_⟩⟩⟩
  · have hwrite' : m.write true f 0x00#8 t.advance = .error reason := hwrite
    simp [clearOp, h, hwrite']
  · have hwrite' : m.write true f 0x00#8 t.advance = .ok x := hwrite
    simp [clearOp, h, hwrite', Instr.skips, State.setFlags]

theorem fileSkipOp_readsThenWrites {op : Byte → Byte} {d : Dest}
    (hexec : execOn m inp i s = finish (fileSkipOp m inp op f d s)) (hw : i.fileWritten = if d = .file then some f else none)
    (hskips : i.skips = true) (hclrf : i ≠ .clrf f) (hlists : (i.listsCarry || i.listsZero) = false) :
    ReadsThenWrites m inp i s f := by
  rw [ReadsThenWrites, hexec, hskips, hw, hlists]
  refine ⟨fun reason h => by simp [fileSkipOp, h], fun v t h => ?_⟩
  cases d with
  | w =>
    refine ⟨fun _ => ?_, fun hfile => by cases hfile⟩
    simp only [fileSkipOp, h, writeDest_w, finish_ok, skipIf_eq_setPc]
    exact ⟨_, rfl, rfl⟩
  | file =>
    refine ⟨fun hnone => (by cases hnone), fun _ => ⟨op v, t.advance, rfl, fun hi => absurd hi hclrf, fun reason hwrite => ?_,
      fun x hwrite => ?_⟩⟩
    · simp only [fileSkipOp, h, writeDest_file, hwrite, finish_error]
    · simp only [fileSkipOp, h, writeDest_file, hwrite, finish_ok, if_neg hclrf, Bool.true_and, skipIf, State.setPc]

theorem bitTestOp_readsThenWrites {sense : Bool} {b : BitNum} (hexec : execOn m inp i s = finish (bitTestOp m inp sense f b s))
    (hw : i.fileWritten = none) : ReadsThenWrites m inp i s f := by
  rw [ReadsThenWrites, hexec, hw]
  refine ⟨fun reason h => by simp [bitTestOp, h], fun v t h => ⟨fun _ => ?_, fun hfile => by cases hfile⟩⟩
  rw [bitTestOp_of_ok h, finish_ok, skipIf_eq_setPc]
  exact ⟨_, rfl, rfl⟩

end Forms

/-- Settles O58: each instruction that names f has one of the four forms. -/
theorem oneReadThenOneWrite : Obligations.OneReadThenOneWrite := by
  intro m inp i s f hn
  change ReadsThenWrites m inp i s f
  cases i <;> simp only [Instr.fileNamed, Option.some.injEq, reduceCtorEq] at hn
  case btfsc | btfss => subst hn; exact bitTestOp_readsThenWrites rfl rfl
  case clrf => subst hn; exact clrf_readsThenWrites
  case decfsz _ d | incfsz _ d =>
    subst hn
    exact fileSkipOp_readsThenWrites (d := d) rfl (by cases d <;> rfl) rfl (by simp) rfl
  case movwf | bcf | bsf =>
    subst hn
    exact fileOp_readsThenWrites (d := .file) rfl rfl rfl (by simp) fun _ _ _ => rfl
  case addwf _ d | andwf _ d | comf _ d | decf _ d | incf _ d | iorwf _ d | movf _ d | rlf _ d | rrf _ d | subwf _ d | swapf _ d
      | xorwf _ d =>
    subst hn
    exact fileOp_readsThenWrites (d := d) rfl (by cases d <;> rfl) rfl (by simp) fun _ _ _ => rfl

/-! ### The defaults, and what RegMap is used for -/

theorem execOn_defaultRegMap (inp : StepInput) (i : Instr) (s : State) : execOn defaultRegMap inp i s = exec i s := by
  cases i <;> rfl

theorem stepOn_defaultPlatform (s : State) : stepOn defaultPlatform s = step s := by
  have hrun : execOn defaultPlatform.regMap = fun _ i t => exec i t := by
    funext inp i t
    exact execOn_defaultRegMap inp i t
  rw [stepOn, hrun, step]

section Congruence

variable {m n : RegMap} {inp : StepInput} {s : State} {f : FileAddr}

theorem writeDest_congr {d : Dest} (hwrite : d = .file → ∀ masked v u, m.write masked f v u = n.write masked f v u)
    (masked : Bool) (v : Byte) (u : State) : writeDest m masked d f v u = writeDest n masked d f v u := by
  cases d with
  | w => rfl
  | file => exact hwrite rfl masked v u

theorem fileOp_congr {op : Byte → Bool → Byte → AluOut} {d : Dest} (hread : m.read f inp s = n.read f inp s)
    (hwrite : d = .file → ∀ masked v u, m.write masked f v u = n.write masked f v u) :
    fileOp m inp op f d s = fileOp n inp op f d s := by
  simp only [fileOp, hread, writeDest_congr hwrite]

theorem fileSkipOp_congr {op : Byte → Byte} {d : Dest} (hread : m.read f inp s = n.read f inp s)
    (hwrite : d = .file → ∀ masked v u, m.write masked f v u = n.write masked f v u) :
    fileSkipOp m inp op f d s = fileSkipOp n inp op f d s := by
  simp only [fileSkipOp, hread, writeDest_congr hwrite]

theorem clearOp_congr (hread : m.read f inp s = n.read f inp s)
    (hwrite : ∀ masked v u, m.write masked f v u = n.write masked f v u) : clearOp m inp f s = clearOp n inp f s := by
  simp only [clearOp, hread, hwrite]

theorem bitTestOp_congr {sense : Bool} {b : BitNum} (hread : m.read f inp s = n.read f inp s) :
    bitTestOp m inp sense f b s = bitTestOp n inp sense f b s := by
  simp only [bitTestOp, hread]

end Congruence

/-- An instruction uses RegMap for the read of the register it names and the write of the register it writes. -/
theorem execOn_congr {m n : RegMap} {inp : StepInput} {i : Instr} {s : State}
    (hread : ∀ f, i.fileNamed = some f → m.read f inp s = n.read f inp s)
    (hwrite : ∀ f masked v u, i.fileWritten = some f → m.write masked f v u = n.write masked f v u) :
    execOn m inp i s = execOn n inp i s := by
  cases i with
  | btfsc f b | btfss f b => exact congrArg finish (bitTestOp_congr (hread f rfl))
  | clrf f => exact congrArg finish (clearOp_congr (hread f rfl) fun masked v u => hwrite f masked v u rfl)
  | decfsz f d | incfsz f d =>
    exact congrArg finish (fileSkipOp_congr (hread f rfl) fun hd masked v u => hwrite f masked v u (by rw [hd]; rfl))
  | movwf f | bcf f _ | bsf f _ =>
    exact congrArg finish (fileOp_congr (hread f rfl) fun _ masked v u => hwrite f masked v u rfl)
  | addwf f d | andwf f d | comf f d | decf f d | incf f d | iorwf f d | movf f d | rlf f d | rrf f d | subwf f d | swapf f d
  | xorwf f d => exact congrArg finish (fileOp_congr (hread f rfl) fun hd masked v u => hwrite f masked v u (by rw [hd]; rfl))
  | _ => rfl

/-- Where no event comes first, the boundary runs the instruction, in the terms of the step's input. -/
theorem atBoundary_eq_run {s : State} (h : NoEvent s) : atBoundary s = .run (takeInput s) := by
  obtain ⟨hawake, hreset, htimeout, hrequest⟩ := h
  refine atBoundary_of_noEvent hawake hreset ?_ ?_
  · rwa [← watchdogTimeOut_iff, Bool.not_eq_true] at htimeout
  · rwa [← intReq_takeInput_iff, ← Bool.and_eq_true, Bool.not_eq_true] at hrequest

/-- Settles O59: the boundary does not ask RegMap. -/
theorem regMapIsAnArgument : Obligations.RegMapIsAnArgument := by
  refine ⟨execOn_defaultRegMap, stepOn_defaultPlatform, fun m s i hquiet hdecode => ?_, fun _ _ _ _ _ => execOn_congr⟩
  have hboundary : boundaryOn { defaultPlatform with regMap := m } s = .run (takeInput s) := atBoundary_eq_run hquiet
  exact stepWith_of_run hboundary hdecode

end Sys2Proof.Machine
end

section
/-! PROOFS. The step (10_state.md section 11, 60_exceptions.md, 70_reset_and_hazards.md section 1): the step's input, the boundary of
an awake and of a sleeping processor, interrupt entry, resets, and what every step keeps. -/

namespace Sys2Proof.Machine

/-! ### The step's input (R43, R44, R195) -/

theorem currentInput_of_cons {s : State} {inp : StepInput} {rest : List StepInput} (h : s.inputs = inp :: rest) :
    currentInput s = inp := by simp [currentInput, h]

theorem currentInput_of_nil {s : State} (h : s.inputs = []) : currentInput s = {} := by simp [currentInput, h]

/-- With no input queued, taking in the input is nothing at all. -/
theorem takeInput_of_nil {s : State} (h : s.inputs = []) : takeInput s = s := by
  have hflags : s.intcon ||| (0#3).setWidth 7 = s.intcon := by simp
  simp only [takeInput, currentInput_of_nil h, hflags, List.foldl_nil]
  rw [h, List.tail_nil, ← h]

/-- The enable bits of INTCON stay. -/
theorem takeInput_intcon_enables (s : State) : (takeInput s).intcon.extractLsb' 3 4 = s.intcon.extractLsb' 3 4 := by
  refine BitVec.eq_of_getLsbD_eq fun n hn => ?_
  have hflag : (currentInput s).flags.getLsbD (3 + n) = false := BitVec.getLsbD_of_ge _ _ (by omega)
  rw [BitVec.getLsbD_extractLsb', BitVec.getLsbD_extractLsb', takeInput_intcon_getLsbD, hflag, Bool.or_false]

theorem read?_pins_takeInput (s : State) (a : Nat) :
    Memory.read? (takeInput s).pins a = (Memory.read? (currentInput s).pins.reverse a <|> Memory.read? s.pins a) :=
  Memory.read?_writes _ _ _

/-- Settles O60: the flags bit by bit, the pins and conditions as folds over the input's lists, the rest by definition. -/
theorem stepInputTakenIn : Obligations.StepInputTakenIn := by
  intro s
  refine ⟨fun inp rest h => ⟨currentInput_of_cons h, by simp [h]⟩, fun h => ⟨currentInput_of_nil h, takeInput_of_nil h⟩,
    fun n _ => takeInput_intcon_getLsbD s n, takeInput_intcon_enables s, fun a level h => ?_, fun a h => ?_,
    fun a => mem_addConds _ _ a, rfl⟩
  · exact readValue_port (by rw [read?_pins_takeInput, h]; rfl)
  · rw [read?_pins_takeInput, h]; rfl

/-! ### The boundary of an awake and of a sleeping processor -/

theorem boundaryOn_awake {p : Platform} {s : State} (hawake : s.sleeping = false) (hreset : (currentInput s).reset = none)
    (htimeout : ¬ TimeOutRaised s) : boundaryOn p s = interruptOrRun p (currentInput s) (takeInput s) := by
  have hw : watchdogTimeOut (currentInput s) (takeInput s) = false := by
    rwa [← watchdogTimeOut_iff, Bool.not_eq_true] at htimeout
  simp [boundaryOn, hawake, runningBoundary, hreset, hw]

theorem boundaryOn_asleep {p : Platform} {s : State} (hasleep : s.sleeping = true) :
    boundaryOn p s = sleepingBoundary p (currentInput s) (takeInput s) := by simp [boundaryOn, hasleep]

/-- A step under a platform, from what its boundary comes to. -/
theorem stepOn_of_done {p : Platform} {s : State} {o : Host.Outcome State Fault Refusal} (h : boundaryOn p s = .done o) :
    stepOn p s = o := stepWith_of_done h

theorem stepOn_of_run {p : Platform} {s u : State} {i : Instr} (h : boundaryOn p s = .run u)
    (hd : decode (progRead u u.pc) = some i) : stepOn p s = execOn p.regMap (currentInput s) i u := stepWith_of_run h hd

theorem step_of_done {s : State} {o : Host.Outcome State Fault Refusal} (h : atBoundary s = .done o) : step s = o :=
  stepWith_of_done h

theorem step_of_run {s u : State} {i : Instr} (h : atBoundary s = .run u) (hd : decode (progRead u u.pc) = some i) :
    step s = exec i u := stepWith_of_run h hd

theorem step_of_unassigned {s u : State} (h : atBoundary s = .run u) (hd : decode (progRead u u.pc) = none) :
    step s = .refused .reservedOpcode := stepWith_of_unassigned h hd

/-- Settles O46: with no event the boundary runs the instruction at the state with the input taken in. -/
theorem stepRunsTheDecodedInstruction : Obligations.StepRunsTheDecodedInstruction := by
  intro s i hquiet hdecode
  have hstep : step s = exec i (takeInput s) := step_of_run (atBoundary_eq_run hquiet) hdecode
  exact ⟨hstep, fun hnil => by rw [hstep, takeInput_of_nil hnil]⟩

/-- Settles O47: with no event the boundary comes to the fetch, which refuses. -/
theorem stepRefusesUnassignedWords : Obligations.StepRefusesUnassignedWords := fun _ hquiet hdecode =>
  step_of_unassigned (atBoundary_eq_run hquiet) hdecode

/-! ### Interrupt entry (R196, R198) -/

/-- Interrupt entry where the stack has room, and its refusal where it has none. -/
theorem finish_takeInterrupt (u : State) :
    finish (takeInterrupt u) = if u.stk.length < u.params.stackDepth then
        .next { u with stk := u.pc :: u.stk, gie := false, pc := u.params.intVector }
      else .refused .stackOverflow := by
  by_cases hroom : u.stk.length < u.params.stackDepth
  · simp [takeInterrupt, push_of_room hroom, hroom]
  · simp [takeInterrupt, push_of_full (Nat.le_of_not_lt hroom), hroom]

theorem interruptOrRun_entry {p : Platform} {inp : StepInput} {u : State} (hgie : u.gie = true) (hreq : p.intReq inp u = true) :
    interruptOrRun p inp u = .done (finish (takeInterrupt u)) := interruptOrRun_of_true (by simp [hgie, hreq])

theorem interruptOrRun_no_entry {p : Platform} {inp : StepInput} {u : State} (h : ¬ (u.gie = true ∧ p.intReq inp u = true)) :
    interruptOrRun p inp u = .run u := interruptOrRun_of_false (by rwa [← Bool.and_eq_true, Bool.not_eq_true] at h)

/-- Settles O48: an awake boundary without reset or time-out is the choice between entry and the instruction. -/
theorem interruptEntry : Obligations.InterruptEntry := by
  refine ⟨fun inp s => by simp [intReq, or_assoc], fun s hawake hreset htimeout hgie hreq => ?_,
    fun p s hawake hreset htimeout => ⟨fun hgie hreq => ?_, fun i hnone hdecode => ?_⟩⟩
  · have hb : atBoundary s = .done (finish (takeInterrupt (takeInput s))) :=
      (boundaryOn_awake hawake hreset htimeout).trans (interruptOrRun_entry hgie ((intReq_takeInput_iff s).2 hreq))
    exact (step_of_done hb).trans (finish_takeInterrupt _)
  · exact (stepOn_of_done ((boundaryOn_awake hawake hreset htimeout).trans (interruptOrRun_entry hgie hreq))).trans
      (finish_takeInterrupt _)
  · exact stepOn_of_run ((boundaryOn_awake hawake hreset htimeout).trans (interruptOrRun_no_entry hnone)) hdecode

/-! ### The step while sleeping (R206) -/

section Sleeping

variable {p : Platform} {s : State}

theorem boundaryOn_asleep_none (hasleep : s.sleeping = true) (hw : p.wakeEvent (currentInput s) (takeInput s) = .none) :
    boundaryOn p s = .done (.next (takeInput s)) := by rw [boundaryOn_asleep hasleep, sleepingBoundary, hw]

theorem boundaryOn_asleep_interrupt (hasleep : s.sleeping = true)
    (hw : p.wakeEvent (currentInput s) (takeInput s) = .interrupt) :
    boundaryOn p s = .run { takeInput s with sleeping := false } := by rw [boundaryOn_asleep hasleep, sleepingBoundary, hw]

theorem boundaryOn_asleep_watchdog (hasleep : s.sleeping = true)
    (hw : p.wakeEvent (currentInput s) (takeInput s) = .watchdog) :
    boundaryOn p s = interruptOrRun p (currentInput s) { takeInput s with sleeping := false, nTO := false } := by
  rw [boundaryOn_asleep hasleep, sleepingBoundary, hw]

theorem boundaryOn_asleep_reset {kind : ResetKind} (hasleep : s.sleeping = true)
    (hw : p.wakeEvent (currentInput s) (takeInput s) = .reset kind) :
    boundaryOn p s = .done (.next (applyReset kind (takeInput s))) := by rw [boundaryOn_asleep hasleep, sleepingBoundary, hw]

end Sleeping

/-- The default WakeEvent by what the step's input raises (R206, D19). -/
theorem wakeEvent_of_reset {s : State} {kind : ResetKind} (h : (currentInput s).reset = some kind) :
    wakeEvent (currentInput s) (takeInput s) = .reset kind := by rw [wakeEvent, h]

theorem wakeEvent_of_timeOut {s : State} (hreset : (currentInput s).reset = none) (h : TimeOutRaised s) :
    wakeEvent (currentInput s) (takeInput s) = .watchdog := by
  have hw : watchdogTimeOut (currentInput s) (takeInput s) = true := (watchdogTimeOut_iff s).2 h
  simp [wakeEvent, hreset, hw]

theorem wakeEvent_of_no_timeOut {s : State} (hreset : (currentInput s).reset = none) (h : ¬ TimeOutRaised s) :
    wakeEvent (currentInput s) (takeInput s) = if (currentInput s).wake then .interrupt else .none := by
  have hw : watchdogTimeOut (currentInput s) (takeInput s) = false := by
    rwa [← watchdogTimeOut_iff, Bool.not_eq_true] at h
  simp [wakeEvent, hreset, hw]

/-- Settles O49: the boundary by the platform's WakeEvent, whose default is what the input raises. -/
theorem sleepingStep : Obligations.SleepingStep := by
  refine ⟨fun s hasleep => ⟨fun hreset htimeout hwake => ?_, fun hreset htimeout hwake => ?_, fun hreset htimeout hnone => ?_,
    fun hreset htimeout hgie hreq => ?_, fun kind hreset => ?_⟩, fun p s hasleep => ⟨fun hw => ?_, fun i hw hdecode => ?_,
    fun u hu hw => ⟨fun hgie hreq => ?_, fun i hnone hdecode => ?_⟩, fun kind hw => ?_⟩⟩
  · have hw : defaultPlatform.wakeEvent (currentInput s) (takeInput s) = .none :=
      (wakeEvent_of_no_timeOut hreset htimeout).trans (by rw [hwake]; rfl)
    have hstep : step s = .next (takeInput s) := step_of_done (boundaryOn_asleep_none hasleep hw)
    exact ⟨hstep, fun hnil => by rw [hstep, takeInput_of_nil hnil]⟩
  · have hw : defaultPlatform.wakeEvent (currentInput s) (takeInput s) = .interrupt :=
      (wakeEvent_of_no_timeOut hreset htimeout).trans (by rw [hwake]; rfl)
    have hb : atBoundary s = .run { takeInput s with sleeping := false } := boundaryOn_asleep_interrupt hasleep hw
    exact ⟨fun i hdecode => step_of_run hb hdecode, fun hdecode => step_of_unassigned hb hdecode⟩
  · have hnone' : ¬ (s.gie = true ∧ intReq (currentInput s) (takeInput s) = true) := by rwa [intReq_takeInput_iff]
    have hb : atBoundary s = .run { takeInput s with sleeping := false, nTO := false } :=
      (boundaryOn_asleep_watchdog hasleep (wakeEvent_of_timeOut hreset htimeout)).trans (interruptOrRun_no_entry hnone')
    exact ⟨fun i hdecode => step_of_run hb hdecode, fun hdecode => step_of_unassigned hb hdecode⟩
  · have hb : atBoundary s = .done (finish (takeInterrupt { takeInput s with sleeping := false, nTO := false })) :=
      (boundaryOn_asleep_watchdog hasleep (wakeEvent_of_timeOut hreset htimeout)).trans
        (interruptOrRun_entry hgie ((intReq_takeInput_iff s).2 hreq))
    exact (step_of_done hb).trans (finish_takeInterrupt _)
  · exact step_of_done (boundaryOn_asleep_reset hasleep (wakeEvent_of_reset hreset))
  · exact stepOn_of_done (boundaryOn_asleep_none hasleep hw)
  · exact stepOn_of_run (boundaryOn_asleep_interrupt hasleep hw) hdecode
  · subst hu
    exact (stepOn_of_done ((boundaryOn_asleep_watchdog hasleep hw).trans (interruptOrRun_entry hgie hreq))).trans
      (finish_takeInterrupt _)
  · subst hu
    exact stepOn_of_run ((boundaryOn_asleep_watchdog hasleep hw).trans (interruptOrRun_no_entry hnone)) hdecode
  · exact stepOn_of_done (boundaryOn_asleep_reset hasleep hw)

/-! ### Resets (R208, R220, R221) -/

/-- A reset raised at a boundary is the step, awake or asleep (D19). -/
theorem step_of_reset {s : State} {kind : ResetKind} (h : (currentInput s).reset = some kind) :
    step s = .next (applyReset kind (takeInput s)) := by
  cases hs : s.sleeping with
  | true => exact step_of_done (boundaryOn_asleep_reset hs (wakeEvent_of_reset h))
  | false => exact step_of_done (by simp [atBoundary, boundaryOn, hs, runningBoundary, h])

/-- A Watchdog time-out of a running processor is a reset (R208). -/
theorem step_of_timeOut {s : State} (hreset : (currentInput s).reset = none) (htimeout : TimeOutRaised s)
    (hawake : s.sleeping = false) : step s = .next (resetWatchdog (takeInput s)) := by
  have hw : watchdogTimeOut (currentInput s) (takeInput s) = true := (watchdogTimeOut_iff s).2 htimeout
  exact step_of_done (by simp [atBoundary, boundaryOn, hawake, runningBoundary, hreset, hw])

theorem resetCommon_restarted (s : State) : Restarted s (resetCommon s) := by
  have hintcon (b : Bool) : (0#6 ++ BitVec.ofBool b).extractLsb' 1 6 = 0#6 := by cases b <;> rfl
  exact ⟨rfl, rfl, rfl, rfl, rfl, rfl, rfl, rfl, hintcon _, rfl, rfl⟩

theorem applyReset_restarted (kind : ResetKind) (s : State) : Restarted s (applyReset kind s) := by
  cases kind with
  | powerOn | mclr | brownOut => exact resetCommon_restarted s

theorem applyReset_kept {kind : ResetKind} (h : kind ≠ .powerOn) (s : State) : Kept s (applyReset kind s) := by
  cases kind with
  | powerOn => exact absurd rfl h
  | mclr | brownOut => exact ⟨rfl, rfl, rfl, rfl, rfl, fun _ => rfl⟩

/-- Settles O50: a raised reset is the whole step, and every reset is `resetCommon` with nTO, nPD and, at power-on, more. -/
theorem resetStep : Obligations.ResetStep := by
  refine fun s => ⟨fun kind hreset => ?_, fun hreset htimeout hawake => ?_⟩
  · refine ⟨_, step_of_reset hreset, applyReset_restarted kind (takeInput s), fun hkind => applyReset_kept hkind (takeInput s),
      ?_, ?_, ?_⟩
    · rintro rfl hawake
      simp [applyReset, resetMclr, hawake, resetCommon]
    · rintro rfl hasleep
      simp [applyReset, resetMclr, hasleep]
    · rintro (rfl | rfl) <;> exact ⟨rfl, rfl⟩
  · exact ⟨_, step_of_timeOut hreset htimeout hawake, resetCommon_restarted (takeInput s),
      ⟨rfl, rfl, rfl, rfl, rfl, fun _ => rfl⟩, rfl, rfl⟩

/-- Settles O51: each value as `State.reset` has it. -/
theorem resetState : Obligations.ResetState :=
  ⟨rfl, rfl, rfl, rfl, rfl, rfl, rfl, rfl, rfl, rfl, rfl, rfl, rfl⟩

end Sys2Proof.Machine
end

section
/-! PROOFS. What every step keeps (10_state.md, 20_memory.md section 1, 60_exceptions.md): the program, the invariant, Sleep mode and
GIE, and that no word but the fetched one is read. -/

namespace Sys2Proof.Machine

/-! ### The program, the parameters and the queue (R60, R75, D1) -/

/-- A step is the taking in of its input and then some of: a reset, a Watchdog reset, a wake-up, an interrupt entry, an instruction. What
each of these keeps, the step keeps. -/
theorem step_preserves (P : State → Prop) {s t : State} (h : step s = .next t) (hinput : P (takeInput s))
    (hreset : ∀ kind u, P u → P (applyReset kind u)) (hwatchdog : ∀ u, P u → P (resetWatchdog u))
    (hwake : ∀ (u : State) (nTO : Bool), P u → P { u with sleeping := false, nTO := nTO })
    (hentry : ∀ u v, P u → takeInterrupt u = .ok v → P v) (hexec : ∀ i u v, P u → exec i u = .next v → P v) : P t := by
  rcases step_cases h with hdone | ⟨u, i, hrun, -, ht⟩
  · rcases atBoundary_done hdone with ⟨kind, -, rfl⟩ | ⟨-, -, rfl⟩ | ⟨-, rfl⟩ | ⟨-, u, hu, ht⟩
    · exact hreset kind _ hinput
    · exact hwatchdog _ hinput
    · exact hinput
    · refine hentry u t ?_ ht
      rcases hu with ⟨-, rfl⟩ | ⟨-, -, rfl⟩
      · exact hinput
      · exact hwake _ false hinput
  · refine hexec i u t ?_ ht
    rcases atBoundary_run hrun with ⟨-, rfl⟩ | ⟨-, -, rfl⟩ | ⟨-, -, rfl⟩
    · exact hinput
    · exact hwake _ (takeInput s).nTO hinput
    · exact hwake _ false hinput

/-- The program, the parameters and the queue are these three. -/
def HasProgram (prog : List (Nat × Word)) (params : Params) (inputs : List StepInput) (u : State) : Prop :=
  u.prog = prog ∧ u.params = params ∧ u.inputs = inputs

theorem exec_hasProgram {prog : List (Nat × Word)} {params : Params} {inputs : List StepInput} {i : Instr} {u v : State}
    (hu : HasProgram prog params inputs u) (h : exec i u = .next v) : HasProgram prog params inputs v := by
  obtain ⟨hprog, hparams, hinputs⟩ := hu
  exact ⟨(exec_prog h).trans hprog, (exec_params h).trans hparams, (exec_inputs h).trans hinputs⟩

theorem takeInterrupt_hasProgram {prog : List (Nat × Word)} {params : Params} {inputs : List StepInput} {u v : State}
    (hu : HasProgram prog params inputs u) (h : takeInterrupt u = .ok v) : HasProgram prog params inputs v := by
  obtain ⟨-, rfl⟩ := takeInterrupt_eq_ok h
  exact hu

/-- Settles O54: only the taking in of the input changes any of the three. -/
theorem programIsFixed : Obligations.ProgramIsFixed := by
  intro s t h
  have hinput : HasProgram s.prog s.params s.inputs.tail (takeInput s) := ⟨rfl, rfl, rfl⟩
  exact step_preserves (HasProgram s.prog s.params s.inputs.tail) h hinput (fun kind u hu => by cases kind <;> exact hu)
    (fun _ hu => hu) (fun _ _ hu => hu) (fun _ _ => takeInterrupt_hasProgram) (fun _ _ _ => exec_hasProgram)

/-! ### The invariant (R28, R60, R61) -/

/-- Settles O52: after reset every memory and list is empty. -/
theorem invariantAtReset : Obligations.InvariantAtReset :=
  ⟨Memory.wf_nil _ _, Memory.wf_nil _ _, Memory.wf_nil _ _, Memory.wf_nil _ _, Nat.zero_le _, List.nodup_nil,
    fun _ h => (List.not_mem_nil h).elim⟩

/-- Writes inside the address space, one after the other, keep the canonical form. -/
theorem Memory.writes_wf {α : Type} [DecidableEq α] {limit : Nat} (l : List (Nat × α)) {m : List (Nat × α)}
    (hm : Memory.wf limit none m) (hl : ∀ e ∈ l, e.1 < limit) :
    Memory.wf limit none (l.foldl (fun m e => Memory.write none m e.1 e.2) m) := by
  induction l generalizing m with
  | nil => exact hm
  | cons e l ih =>
    obtain ⟨he, hl⟩ := List.forall_mem_cons.1 hl
    exact ih (Memory.write_wf hm he) hl

theorem addCond_nodup {conds : List Nat} (a : Nat) (h : conds.Nodup) : (addCond conds a).Nodup := by
  unfold addCond
  split
  · exact h
  · next ha => exact List.nodup_cons.2 ⟨ha, h⟩

theorem addConds_nodup (l : List Nat) {conds : List Nat} (h : conds.Nodup) : (l.foldl addCond conds).Nodup := by
  induction l generalizing conds with
  | nil => exact h
  | cons a l ih => exact ih (addCond_nodup a h)

theorem currentInput_pins_lt {s : State} (h : ∀ inp ∈ s.inputs, ∀ e ∈ inp.pins, e.1 < 512) :
    ∀ e ∈ (currentInput s).pins, e.1 < 512 := by
  cases hs : s.inputs with
  | nil => simp [currentInput_of_nil hs]
  | cons inp rest =>
    rw [currentInput_of_cons hs]
    exact h inp (by simp [hs])

theorem takeInput_inv {s : State} (h : StateInv s) : StateInv (takeInput s) := by
  obtain ⟨hprog, hram, hlatch, hpins, hstk, hconds, hinputs⟩ := h
  exact ⟨hprog, hram, hlatch, Memory.writes_wf _ hpins (currentInput_pins_lt hinputs), hstk, addConds_nodup _ hconds,
    fun inp hmem => hinputs inp (List.mem_of_mem_tail hmem)⟩

theorem resetCommon_inv {s : State} (h : StateInv s) : StateInv (resetCommon s) := by
  obtain ⟨hprog, hram, hlatch, hpins, -, hconds, hinputs⟩ := h
  exact ⟨hprog, hram, hlatch, hpins, Nat.zero_le _, hconds, hinputs⟩

theorem applyReset_inv (kind : ResetKind) {s : State} (h : StateInv s) : StateInv (applyReset kind s) := by
  obtain ⟨hprog, -, -, hpins, hstk, hconds, hinputs⟩ := resetCommon_inv h
  cases kind with
  | powerOn => exact ⟨hprog, Memory.wf_nil _ _, Memory.wf_nil _ _, hpins, hstk, hconds, hinputs⟩
  | mclr | brownOut =>
    have hcommon := resetCommon_inv h
    exact hcommon

theorem takeInterrupt_inv {s t : State} (h : StateInv s) (ht : takeInterrupt s = .ok t) : StateInv t := by
  obtain ⟨hprog, hram, hlatch, hpins, -, hconds, hinputs⟩ := h
  obtain ⟨hroom, rfl⟩ := takeInterrupt_eq_ok ht
  exact ⟨hprog, hram, hlatch, hpins, hroom, hconds, hinputs⟩

/-- The registers that hold storage or a latch stand at data addresses. -/
theorem selectReg_address_lt {p : Params} {a : DataAddr} {r : FileReg} (h : selectReg p a = some r) {n : Nat}
    (hr : r = .storage n ∨ r = .port n) : n < 512 := by
  have ha : a.toNat < 512 := a.isLt
  have hlow : (a.extractLsb' 0 7).toNat < 128 := (a.extractLsb' 0 7).isLt
  simp only [selectReg] at h
  split_ifs at h
  all_goals grind

/-- A write of the register that f selects keeps the invariant: it lists only addresses of the data space. -/
theorem writeReg_inv {s u : State} {f : FileAddr} {r : FileReg} (hr : fileReg s f = some r) (hu : StateInv u) (masked : Bool)
    (v : Byte) : StateInv (writeReg masked r v u) := by
  obtain ⟨hprog, hram, hlatch, hpins, hstk, hconds, hinputs⟩ := hu
  cases r with
  | storage a =>
    exact ⟨hprog, Memory.write_wf hram (selectReg_address_lt hr (.inl rfl)), hlatch, hpins, hstk, hconds, hinputs⟩
  | port a =>
    exact ⟨hprog, hram, Memory.write_wf hlatch (selectReg_address_lt hr (.inr rfl)), hpins, hstk, hconds, hinputs⟩
  | _ => exact ⟨hprog, hram, hlatch, hpins, hstk, hconds, hinputs⟩

theorem afterRead_inv {s : State} (r : FileReg) (h : StateInv s) : StateInv (afterRead r s) := by
  obtain ⟨hprog, hram, hlatch, hpins, hstk, hconds, hinputs⟩ := h
  cases r with
  | port a => exact ⟨hprog, hram, hlatch, hpins, hstk, hconds.filter _, hinputs⟩
  | _ => exact ⟨hprog, hram, hlatch, hpins, hstk, hconds, hinputs⟩

/-- An instruction that names no file register keeps the stack within its depth: CALL pushes only where there is room. -/
theorem exec_noFile_stk_le {i : Instr} {s t : State} (h : exec i s = .next t) (hn : i.fileNamed = none)
    (hs : s.stk.length ≤ s.params.stackDepth) : t.stk.length ≤ s.params.stackDepth := by
  by_cases hstack : i.pushes = true ∨ i.pops = true
  · cases i <;> simp only [Instr.pushes, Instr.pops, or_self, reduceCtorEq] at hstack
    case call => obtain ⟨hroom, rfl⟩ := exec_call_eq_next h; exact hroom
    case ret =>
      obtain ⟨a, rest, hstk, rfl⟩ := popPc_eq_ok (finish_eq_next h)
      exact Nat.le_of_succ_le (by simpa [hstk] using hs)
    case retlw =>
      obtain ⟨a, rest, hstk, rfl⟩ := popPc_eq_ok (finish_eq_next h)
      rw [State.setW_stk] at hstk
      exact Nat.le_of_succ_le (by simpa [hstk] using hs)
    case retfie =>
      obtain ⟨a, rest, hstk, rfl⟩ := returnFromInterrupt_eq_ok (finish_eq_next h)
      exact Nat.le_of_succ_le (by simpa [hstk] using hs)
  · simp only [not_or, Bool.not_eq_true] at hstack
    obtain ⟨hpush, hpop⟩ := hstack
    obtain ⟨hstk, -⟩ := exec_control_frame h
    rwa [hstk hpush hpop]

theorem exec_inv {i : Instr} {s t : State} (hs : StateInv s) (h : exec i s = .next t) : StateInv t := by
  cases hr : regRead i s with
  | none =>
    have hn := fileNamed_eq_none_of_regRead h hr
    obtain ⟨hprog, hram, hlatch, hpins, hstk, hconds, hinputs⟩ := hs
    have hstk' := exec_noFile_stk_le h hn hstk
    rw [exec_noFile_keeps h hn]
    exact ⟨hprog, hram, hlatch, hpins, hstk', hconds, hinputs⟩
  | some r =>
    obtain ⟨f, -, hf⟩ := Option.bind_eq_some_iff.1 hr
    exact exec_read_preserves StateInv h hr (afterRead_inv r hs) (fun _ _ hu => hu) fun _ masked v u hu =>
      writeReg_inv hf hu masked v

/-- Settles O53: each part of a step keeps the invariant. -/
theorem stepKeepsTheInvariant : Obligations.StepKeepsTheInvariant := fun _ _ hs h =>
  step_preserves StateInv h (takeInput_inv hs) (fun kind _ => applyReset_inv kind) (fun _ => resetCommon_inv)
    (fun _ _ hu => hu) (fun _ _ => takeInterrupt_inv) (fun _ _ _ => exec_inv)

/-! ### No word but the fetched one is read (R25, R52, R60, D14) -/

/-- The state with a word loaded, after whatever comes of it: a boundary's outcome or the state whose instruction runs. -/
def Boundary.mapState (g : State → State) : Boundary → Boundary
  | .done o => .done (mapNext g o)
  | .run u => .run (g u)

section LoadWord

variable (s : State) (a : ProgAddr) (x : Word)

theorem stored_loadWord (d : Dest) (masked : Bool) (r : FileReg) (v : Byte) :
    stored d masked r v (loadWord s a x) = loadWord (stored d masked r v s) a x := by
  cases d with
  | w => rfl
  | file => exact writeReg_loadWord masked r v s a x

theorem skipIf_loadWord (cond : Bool) (pc : ProgAddr) :
    skipIf cond pc (loadWord s a x) = loadWord (skipIf cond pc s) a x := by cases cond <;> rfl

/-- A form commutes with the load of a word when it does so where RegMap defines the register: elsewhere it refuses. -/
theorem finish_fileOp_loadWord (inp : StepInput) (op : Byte → Bool → Byte → AluOut) (f : FileAddr) (d : Dest) :
    finish (fileOp defaultRegMap inp op f d (loadWord s a x))
      = mapNext (loadWord · a x) (finish (fileOp defaultRegMap inp op f d s)) := by
  cases hr : fileReg s f with
  | none => rw [fileOp_of_none hr, fileOp_of_none (s := loadWord s a x) hr]; rfl
  | some r =>
    rw [finish_fileOp_of_some hr, finish_fileOp_of_some (s := loadWord s a x) hr, readValue_loadWord, afterRead_loadWord,
      setFlags_loadWord, setPc_loadWord, stored_loadWord]
    rfl

theorem finish_clearOp_loadWord (inp : StepInput) (f : FileAddr) :
    finish (clearOp defaultRegMap inp f (loadWord s a x)) = mapNext (loadWord · a x) (finish (clearOp defaultRegMap inp f s)) := by
  cases hr : fileReg s f with
  | none => rw [clearOp_of_none hr, clearOp_of_none (s := loadWord s a x) hr]; rfl
  | some r =>
    rw [clearOp_of_some hr, clearOp_of_some (s := loadWord s a x) hr, afterRead_loadWord, advance_loadWord, writeReg_loadWord,
      setFlags_loadWord]
    rfl

theorem finish_fileSkipOp_loadWord (inp : StepInput) (op : Byte → Byte) (f : FileAddr) (d : Dest) :
    finish (fileSkipOp defaultRegMap inp op f d (loadWord s a x))
      = mapNext (loadWord · a x) (finish (fileSkipOp defaultRegMap inp op f d s)) := by
  cases hr : fileReg s f with
  | none => rw [fileSkipOp_of_none hr, fileSkipOp_of_none (s := loadWord s a x) hr]; rfl
  | some r =>
    rw [finish_fileSkipOp_of_some hr, finish_fileSkipOp_of_some (s := loadWord s a x) hr, readValue_loadWord, afterRead_loadWord,
      setPc_loadWord, stored_loadWord, skipIf_loadWord]
    rfl

theorem finish_bitTestOp_loadWord (inp : StepInput) (sense : Bool) (f : FileAddr) (b : BitNum) :
    finish (bitTestOp defaultRegMap inp sense f b (loadWord s a x))
      = mapNext (loadWord · a x) (finish (bitTestOp defaultRegMap inp sense f b s)) := by
  cases hr : fileReg s f with
  | none => rw [bitTestOp_of_none hr, bitTestOp_of_none (s := loadWord s a x) hr]; rfl
  | some r =>
    rw [finish_bitTestOp_of_some hr, finish_bitTestOp_of_some (s := loadWord s a x) hr, readValue_loadWord, afterRead_loadWord,
      setPc_loadWord]
    rfl

theorem exec_call_loadWord (k : PageAddr) :
    exec (.call k) (loadWord s a x) = mapNext (loadWord · a x) (exec (.call k) s) := by
  by_cases hroom : s.stk.length < s.params.stackDepth
  · rw [exec_call_of_room k hroom, exec_call_of_room (s := loadWord s a x) k hroom]; rfl
  · have hfull := Nat.le_of_not_lt hroom
    rw [exec_call_of_full k hfull, exec_call_of_full (s := loadWord s a x) k hfull]; rfl

theorem exec_pops_loadWord {i : Instr} (hi : i.pops = true) :
    exec i (loadWord s a x) = mapNext (loadWord · a x) (exec i s) := by
  cases i <;> simp only [Instr.pops, reduceCtorEq] at hi
  case ret =>
    cases hstk : s.stk with
    | nil => rw [exec_ret_of_nil hstk, exec_ret_of_nil (s := loadWord s a x) hstk]; rfl
    | cons p rest => rw [exec_ret_of_cons hstk, exec_ret_of_cons (s := loadWord s a x) hstk]; rfl
  case retlw k =>
    cases hstk : s.stk with
    | nil => rw [exec_retlw_of_nil k hstk, exec_retlw_of_nil (s := loadWord s a x) k hstk]; rfl
    | cons p rest => rw [exec_retlw_of_cons k hstk, exec_retlw_of_cons (s := loadWord s a x) k hstk]; rfl
  case retfie =>
    cases hstk : s.stk with
    | nil => rw [exec_retfie_of_nil hstk, exec_retfie_of_nil (s := loadWord s a x) hstk]; rfl
    | cons p rest => rw [exec_retfie_of_cons hstk, exec_retfie_of_cons (s := loadWord s a x) hstk]; rfl

/-- No instruction looks at program memory: a word loaded before it is a word loaded after it. -/
theorem exec_loadWord (i : Instr) : exec i (loadWord s a x) = mapNext (loadWord · a x) (exec i s) := by
  cases i with
  | btfsc f b | btfss f b => exact finish_bitTestOp_loadWord s a x {} _ f b
  | clrf f => exact finish_clearOp_loadWord s a x {} f
  | decfsz f d | incfsz f d => exact finish_fileSkipOp_loadWord s a x {} _ f d
  | movwf f | bcf f _ | bsf f _ => exact finish_fileOp_loadWord s a x {} _ f .file
  | addwf f d | andwf f d | comf f d | decf f d | incf f d | iorwf f d | movf f d | rlf f d | rrf f d | subwf f d | swapf f d
  | xorwf f d => exact finish_fileOp_loadWord s a x {} _ f d
  | call k => exact exec_call_loadWord s a x k
  | ret | retlw | retfie => exact exec_pops_loadWord s a x rfl
  | _ => rfl

theorem applyReset_loadWord (kind : ResetKind) : applyReset kind (loadWord s a x) = loadWord (applyReset kind s) a x := by
  cases kind <;> rfl

theorem finish_takeInterrupt_loadWord :
    finish (takeInterrupt (loadWord s a x)) = mapNext (loadWord · a x) (finish (takeInterrupt s)) := by
  rw [finish_takeInterrupt, finish_takeInterrupt]
  by_cases hroom : s.stk.length < s.params.stackDepth
  · rw [if_pos hroom, if_pos (show (loadWord s a x).stk.length < (loadWord s a x).params.stackDepth from hroom)]; rfl
  · rw [if_neg hroom, if_neg (show ¬ (loadWord s a x).stk.length < (loadWord s a x).params.stackDepth from hroom)]; rfl

theorem interruptOrRun_loadWord (inp : StepInput) :
    interruptOrRun defaultPlatform inp (loadWord s a x)
      = (interruptOrRun defaultPlatform inp s).mapState (loadWord · a x) := by
  cases hentry : s.gie && intReq inp s with
  | true =>
    rw [interruptOrRun_of_true (p := defaultPlatform) hentry,
      interruptOrRun_of_true (p := defaultPlatform) (s := loadWord s a x) hentry, finish_takeInterrupt_loadWord]
    rfl
  | false =>
    rw [interruptOrRun_of_false (p := defaultPlatform) hentry,
      interruptOrRun_of_false (p := defaultPlatform) (s := loadWord s a x) hentry]
    rfl

theorem takeInput_loadWord : takeInput (loadWord s a x) = loadWord (takeInput s) a x := rfl

theorem sleepingBoundary_loadWord (inp : StepInput) :
    sleepingBoundary defaultPlatform inp (loadWord s a x)
      = (sleepingBoundary defaultPlatform inp s).mapState (loadWord · a x) := by
  have hwake : defaultPlatform.wakeEvent inp (loadWord s a x) = defaultPlatform.wakeEvent inp s := rfl
  rw [sleepingBoundary, sleepingBoundary, hwake]
  cases defaultPlatform.wakeEvent inp s with
  | none | interrupt => rfl
  | watchdog => exact interruptOrRun_loadWord { s with sleeping := false, nTO := false } a x inp
  | reset kind => simp only [applyReset_loadWord]; rfl

theorem runningBoundary_loadWord (inp : StepInput) :
    runningBoundary defaultPlatform inp (loadWord s a x)
      = (runningBoundary defaultPlatform inp s).mapState (loadWord · a x) := by
  have htimeout : watchdogTimeOut inp (loadWord s a x) = watchdogTimeOut inp s := rfl
  rw [runningBoundary, runningBoundary, htimeout]
  cases inp.reset with
  | some kind => simp only [applyReset_loadWord]; rfl
  | none =>
    cases watchdogTimeOut inp s with
    | true => rfl
    | false => exact interruptOrRun_loadWord s a x inp

/-- No event looks at program memory. -/
theorem atBoundary_loadWord : atBoundary (loadWord s a x) = (atBoundary s).mapState (loadWord · a x) := by
  have hinput : currentInput (loadWord s a x) = currentInput s := rfl
  rw [atBoundary, atBoundary, boundaryOn, boundaryOn, hinput, takeInput_loadWord, loadWord_sleeping, sleepingBoundary_loadWord,
    runningBoundary_loadWord]
  cases s.sleeping <;> rfl

end LoadWord

/-- The word at pc is fetched at the address the step began at. -/
theorem atBoundary_run_pc {s u : State} (h : atBoundary s = .run u) : u.pc = s.pc := by
  rcases atBoundary_run h with ⟨-, rfl⟩ | ⟨-, -, rfl⟩ | ⟨-, -, rfl⟩ <;> rfl

/-- Settles O55: the boundary and the instruction commute with the load, and the fetch reads another address. -/
theorem stepReadsOnlyTheFetchedWord : Obligations.StepReadsOnlyTheFetchedWord := by
  intro s a x hne
  have hboundary := atBoundary_loadWord s a x
  cases hb : atBoundary s with
  | done o =>
    rw [hb] at hboundary
    rw [step_of_done hb, step_of_done hboundary]
  | run u =>
    rw [hb] at hboundary
    have hfetch : progRead (loadWord u a x) (loadWord u a x).pc = progRead u u.pc := by
      rw [progRead_loadWord, loadWord_pc, if_neg (by rw [atBoundary_run_pc hb]; exact hne.symm)]
    cases hd : decode (progRead u u.pc) with
    | none => rw [step_of_unassigned hb hd, step_of_unassigned hboundary (hfetch ▸ hd)]; rfl
    | some i => rw [step_of_run hb hd, step_of_run hboundary (hfetch ▸ hd), exec_loadWord]

/-! ### Sleep mode (R42, R193, R206) -/

/-- A processor that a boundary lets run an instruction is awake, at the word it was to fetch. -/
theorem atBoundary_run_awake {s u : State} (h : atBoundary s = .run u) :
    u.sleeping = false ∧ u.gie = s.gie ∧ progRead u u.pc = progRead s s.pc := by
  rcases atBoundary_run h with ⟨hawake, rfl⟩ | ⟨-, -, rfl⟩ | ⟨-, -, rfl⟩
  · exact ⟨hawake, rfl, rfl⟩
  · exact ⟨rfl, rfl, rfl⟩
  · exact ⟨rfl, rfl, rfl⟩

/-- A step that ends asleep either was asleep before, or ran SLEEP. -/
theorem step_falls_asleep {s t : State} (h : step s = .next t) (hs : s.sleeping = false) (ht : t.sleeping = true) :
    decode (progRead s s.pc) = some .sleep := by
  rcases step_cases h with hdone | ⟨u, i, hrun, hdecode, hexec⟩
  · exfalso
    rcases atBoundary_done hdone with ⟨kind, -, rfl⟩ | ⟨-, -, rfl⟩ | ⟨hasleep, -⟩ | ⟨-, u, hu, hentry⟩
    · cases kind <;> cases ht
    · cases ht
    · simp [hs] at hasleep
    · obtain ⟨-, rfl⟩ := takeInterrupt_eq_ok hentry
      rcases hu with ⟨-, rfl⟩ | ⟨-, -, rfl⟩
      · rw [show s.sleeping = true from ht] at hs; cases hs
      · cases ht
  · obtain ⟨hawake, -, hfetch⟩ := atBoundary_run_awake hrun
    obtain ⟨-, hsleep, -⟩ := exec_control_frame hexec
    have hi : i = .sleep := by
      by_contra hi
      rw [hsleep hi, hawake] at ht
      cases ht
    rw [← hfetch, hdecode, hi]

/-- A step that wakes the processor finds a wake-up event raised. -/
theorem step_wakes {s t : State} (h : step s = .next t) (hs : s.sleeping = true) (ht : t.sleeping = false) :
    (currentInput s).reset ≠ none ∨ TimeOutRaised s ∨ (currentInput s).wake = true := by
  rcases step_cases h with hdone | ⟨u, i, hrun, -, -⟩
  · rcases atBoundary_done hdone with ⟨kind, hreset, -⟩ | ⟨hawake, -⟩ | ⟨-, rfl⟩ | ⟨-, u, hu, -⟩
    · exact .inl (by simp [hreset])
    · simp [hs] at hawake
    · simp [hs] at ht
    · rcases hu with ⟨hawake, -⟩ | ⟨-, htimeout, -⟩
      · simp [hs] at hawake
      · exact .inr (.inl ((watchdogTimeOut_iff s).1 htimeout))
  · rcases atBoundary_run hrun with ⟨hawake, -⟩ | ⟨-, hwake, -⟩ | ⟨-, htimeout, -⟩
    · simp [hs] at hawake
    · exact .inr (.inr hwake)
    · exact .inr (.inl ((watchdogTimeOut_iff s).1 htimeout))

/-- Settles O56: what a step that falls asleep has run, and what a step that wakes has found raised. -/
theorem sleepModeOnlyBySleep : Obligations.SleepModeOnlyBySleep := fun _ _ h => ⟨step_falls_asleep h, step_wakes h⟩

/-! ### GIE (R39, R198, R200) -/

/-- No event at a boundary sets GIE. -/
theorem atBoundary_done_gie {s t : State} (h : atBoundary s = .done (.next t)) (hs : s.gie = false) : t.gie = false := by
  rcases atBoundary_done h with ⟨kind, -, rfl⟩ | ⟨-, -, rfl⟩ | ⟨-, rfl⟩ | ⟨-, u, -, hentry⟩
  · cases kind <;> rfl
  · rfl
  · exact hs
  · obtain ⟨-, rfl⟩ := takeInterrupt_eq_ok hentry
    rfl

/-- An instruction that changes GIE is RETFIE, which sets it, or writes INTCON. -/
theorem exec_gie_change {i : Instr} {u t : State} (h : exec i u = .next t) (hne : t.gie ≠ u.gie) :
    (i = .retfie ∧ t.gie = true) ∨ regWritten i u = some .intcon := by
  by_cases hi : i = .retfie
  · subst hi
    obtain ⟨a, rest, -, rfl⟩ := returnFromInterrupt_eq_ok (finish_eq_next h)
    exact .inl ⟨rfl, rfl⟩
  · obtain ⟨-, -, -, hgie⟩ := exec_control_frame h
    by_contra hnone
    exact hne (hgie (fun hw => hnone (.inr hw)) hi)

/-- Settles O57: no event sets GIE, and an instruction that changes it is RETFIE, which sets it, or writes INTCON. -/
theorem globalInterruptEnableChanges : Obligations.GlobalInterruptEnableChanges := by
  intro s t h
  refine ⟨fun hs ht => ?_, fun hs ht => ?_⟩
  · rcases step_cases h with hdone | ⟨u, i, hrun, hdecode, hexec⟩
    · rw [atBoundary_done_gie hdone hs] at ht
      cases ht
    · obtain ⟨-, hgie, -⟩ := atBoundary_run_awake hrun
      have hchange := exec_gie_change hexec (by rw [ht, hgie, hs]; decide)
      exact ⟨u, i, hrun, hdecode, hexec, hchange.imp_left And.left⟩
  · rcases step_cases h with hdone | ⟨u, i, hrun, hdecode, hexec⟩
    · rcases atBoundary_done hdone with ⟨kind, hreset, -⟩ | ⟨hawake, htimeout, -⟩ | ⟨-, rfl⟩ | ⟨-, u, hu, hentry⟩
      · exact .inl ⟨kind, hreset⟩
      · exact .inr (.inl ⟨hawake, (watchdogTimeOut_iff s).1 htimeout⟩)
      · rw [show s.gie = false from ht] at hs
        cases hs
      · exact .inr (.inr (.inl ⟨u, hu.imp And.right fun ⟨_, _, hwoken⟩ => hwoken, hentry⟩))
    · obtain ⟨-, hgie, -⟩ := atBoundary_run_awake hrun
      have hchange := exec_gie_change hexec (by rw [ht, hgie, hs]; decide)
      have hintcon : regWritten i u = some .intcon := hchange.resolve_left fun hretfie => by simp [ht] at hretfie
      exact .inr (.inr (.inr ⟨u, i, hrun, hdecode, hexec, hintcon⟩))

end Sys2Proof.Machine
end
